-- ==== Sys2Proof/Word.lean ====
section
/-! DEFINITION. The words the manual treats as bits: bytes on a wire, two- and four-byte fields, 7-bit bus addresses. -/

namespace Sys2Proof

/-- A byte of the Message Port or of a segment. -/
abbrev Byte := BitVec 8

/-- A two-byte field of a body (10 R178). -/
abbrev Half := BitVec 16

/-- A four-byte field of a body (10 R178). -/
abbrev Word := BitVec 32

/-- A 7-bit bus address (00, Conventions). -/
abbrev Addr := BitVec 7

/-- A segment S0 to S3. -/
abbrev SegId := Fin 4

/-- A pool slot number (02 R21). -/
abbrev SlotId := Fin 32

/-- A directory index (01 R2). -/
abbrev TargetId := Fin 64

/-- A poll entry index (07 R124). -/
abbrev PollId := Fin 48

/-- A conversation's generation count, 0 to 2047, wrapping to 0 (02 R21). -/
abbrev Gen := BitVec 11

end Sys2Proof
end

