-- ==== Sys2Proof/Syntax.lean ====
section
/-! DEFINITION. The commands of the block: one constructor per row of spec/opcode_table.json, with its operands. -/

namespace Sys2Proof

/-- Where the engine's transaction stands on the wire: the sub-state of 04 R64 with its byte index.
`stop i acked` is the STOP (or the hand-over to a repeated START) after byte `i`; `acked` says whether the address byte was acknowledged. -/
inductive BusPos
  | waitFree
  | start
  | address
  | data (i : Nat)
  | checkByte (i : Nat)
  | stop (i : Nat) (acked : Bool)
deriving DecidableEq, Repr

/-- How far the transaction of one segment's engine has come when a request reads or ends it: the position, and the data bytes
received so far (log 7). The wire is outside the model, so a command brings this with it. -/
structure WireNote where
  seg : SegId
  pos : BusPos
  received : List Byte
deriving DecidableEq, Repr

/-- The three places of 04 R75 at which a bus fault is found. -/
inductive FaultSite
  | lineWatch
  | atStart
  | atStop (i : Nat) (acked : Bool)
deriving DecidableEq, Repr

/-- What the engine reads after one recovery pulse (04 R77, step 2). -/
inductive PulseRead
  | sdaHigh
  | sdaLow
  | sclStuck
deriving DecidableEq, Repr

/-- How the STOP of a recovery ends (04 R77, step 3). -/
inductive StopRead
  | linesHigh
  | sclStuck
  | sdaStuck
deriving DecidableEq, Repr

/-- What the engine reads on the lines in one recovery sequence (04 R77). -/
structure RecoveryLines where
  sdaHighAtOnce : Bool
  pulses : List PulseRead
  stop : StopRead
deriving DecidableEq, Repr

/-- The commands. A request's operands are its tag and its body bytes (10 R177 to R181); an event's say what the wire, the pin or the timer did. -/
inductive Instr
  -- requests of the Message Port (09)
  | ping (tag : Byte) (body : List Byte)
  | restart (tag : Byte) (body : List Byte)
  | linkStatus (tag : Byte) (body : List Byte)
  | setAttention (tag : Byte) (body : List Byte)
  -- requests of the Report Queue (08)
  | setReportMask (tag : Byte) (body : List Byte)
  -- requests of the Target Directory (01)
  | addTarget (tag : Byte) (body : List Byte)
  | modifyTarget (tag : Byte) (body : List Byte)
  | withdrawTargetNormal (tag : Byte) (body : List Byte)
  | withdrawTargetForced (tag : Byte) (body : List Byte)
  | readTarget (tag : Byte) (body : List Byte)
  | listTargets (tag : Byte) (body : List Byte)
  -- requests of the segment engines and queues (04, 03)
  | configureSegment (tag : Byte) (body : List Byte)
  | segmentStatus (wire : Option WireNote) (tag : Byte) (body : List Byte)
  | holdSegment (tag : Byte) (body : List Byte)
  | releaseSegment (tag : Byte) (body : List Byte)
  | resetSegment (wire : Option WireNote) (tag : Byte) (body : List Byte)
  | flushSegment (tag : Byte) (body : List Byte)
  | readFault (tag : Byte) (body : List Byte)
  -- requests of the Conversation Pool (02)
  | openConversation (tag : Byte) (body : List Byte)
  | appendSteps (tag : Byte) (body : List Byte)
  | submitConversation (tag : Byte) (body : List Byte)
  | runConversation (tag : Byte) (body : List Byte)
  | cancelConversation (tag : Byte) (body : List Byte)
  | conversationStatus (tag : Byte) (body : List Byte)
  | fetchResult (tag : Byte) (body : List Byte)
  -- requests of the Poll Scheduler (07)
  | setFrame (tag : Byte) (body : List Byte)
  | startSchedule (tag : Byte) (body : List Byte)
  | stopSchedule (tag : Byte) (body : List Byte)
  | putPoll (tag : Byte) (body : List Byte)
  | clearPoll (tag : Byte) (body : List Byte)
  | clearShadow (tag : Byte) (body : List Byte)
  | copyActive (tag : Byte) (body : List Byte)
  | commitBank (tag : Byte) (body : List Byte)
  | readPoll (tag : Byte) (body : List Byte)
  -- requests of the Alert Inbox (06)
  | fetchInbox (tag : Byte) (body : List Byte)
  | inboxStatus (tag : Byte) (body : List Byte)
  -- the Message Port's own events (09)
  | rejectFrame (kind tag len : Byte) (body : List Byte) (check0 check1 : Byte)
  | strayByte (zeros : Nat) (b : Byte)
  | transferStart
  | transferEnd (mdi : List Byte)
  | frameDelivery (mdi : List Byte)
  -- resets (08 R156, 09 R173 to R176)
  | restartFallbackExpiry
  | rstnAssert
  | rstnRelease
  | powerOnReset
  -- the pool's timers (02)
  | assemblyExpiry (slot : SlotId)
  | deadlineExpiry (slot : SlotId)
  -- the segment engines (03, 04, 05)
  | conversationStart (seg : SegId)
  | sweepStart (seg : SegId)
  | transactionEnd (seg : SegId) (nakAt : Option Nat) (received : List Byte)
  | arbLost (seg : SegId) (byteIndex : Nat)
  | retryGapExpiry (seg : SegId)
  | intervalExpiry (seg : SegId)
  | pauseExpiry (seg : SegId)
  | clockStall (seg : SegId) (pos : BusPos)
  | busFault (seg : SegId) (site : FaultSite)
  | receptionStall (seg : SegId)
  | recoverySuccess (seg : SegId) (lines : RecoveryLines)
  | recoveryFailure (seg : SegId) (lines : RecoveryLines)
  | busStartSeen (seg : SegId)
  | busStopSeen (seg : SegId)
  | busFreeTimeExpiry (seg : SegId)
  | busIdleTimeout (seg : SegId)
  -- the target receivers and alerts (06)
  | addressByteJudged (seg : SegId) (b : Byte)
  | receivedDataByte (seg : SegId) (b : Byte)
  | alrFall (seg : SegId)
  | alrRise (seg : SegId)
  | sweepHoldoffExpiry (seg : SegId)
  -- the Poll Scheduler (07)
  | frameBoundary
  -- the parser (09)
  | inboundFrameBegins (zeros : Nat)
deriving DecidableEq, Repr

end Sys2Proof
end

