-- ==== Sys2Proof/Decode.lean ====
section
/-! DEFINITION. The command a word of bits spells. spec/opcode_table.json gives no row any bits (98_reader.md: 70 of 70 rows have none),
so no word spells a command (log 23). The bytes of a request frame are parsed by the machine itself (09 R161). -/

namespace Sys2Proof

/-- No row of the table gives bits, so no word spells a command. -/
def decodeTableWord (_nbits _w : Nat) : Option Instr := none

end Sys2Proof
end

