-- ==== Sys2Proof/Config.lean ====
section
/-! DEFINITION. What the part fixes (00, Capacities and limits) and the one value the manual leaves free. -/

namespace Sys2Proof.Config

/-- FREE VALUE (log 11, DESIGN CHOICE). The byte an implementation sends for a flag that is set: 10 R178 says only that every value
other than 0 means set. It has no body; `Sys2Proof.Machine.flagByte` makes sure that it is not 0. -/
opaque setFlagChoice : Byte

/-- Slots the host may hold (02 R23). -/
def hostSlots : Nat := 24
/-- Most steps of a conversation (02 R27). -/
def maxSteps : Nat := 8
/-- Most write bytes of a conversation (02 R27). -/
def maxWriteBytes : Nat := 128
/-- Most read bytes of a conversation (02 R27). -/
def maxReadBytes : Nat := 64
/-- Assembly idle time in ms (02 R28, R30). -/
def assemblyIdle : Nat := 1000
/-- RESTART fallback time in ms (09 R173). -/
def restartFallback : Nat := 250
/-- Default miss threshold (01 R5). -/
def defaultThreshold : Nat := 3
/-- Default step retries, retry gap in ms and arbitration budget (02 R24). -/
def defaultRetries : Nat := 2
def defaultGap : Nat := 5
def defaultBudget : Nat := 3
/-- Longest deadline in ms (02 R33). -/
def maxDeadline : Nat := 65535
/-- Urgent streak limit (03 R49). -/
def streakLimit : Nat := 4
/-- Inbox places (06 R107, R113). -/
def inboxPlaces : Nat := 16
/-- Most bytes of an inbox message (06 R108). -/
def maxMessage : Nat := 32
/-- Empty sweeps before STUCK (06 R121). -/
def stuckLimit : Nat := 8
/-- Places of the reply queue (09 R165). -/
def replyPlaces : Nat := 4
/-- Places of the report list (08 R147). -/
def reportPlaces : Nat := 32
/-- Most body bytes of a frame (10 R177). -/
def maxBody : Nat := 60
/-- Most recovery clock pulses (04 R77). -/
def maxPulses : Nat := 9
/-- Default schedule frame length in ms (07 R124). -/
def defaultFrameLength : Nat := 10
/-- Default stall limit in ms and sweep address (04 R59). -/
def defaultStallLimit : Nat := 25
def defaultSweepAddress : Addr := 0x0C#7

end Sys2Proof.Config
end

