-- ==== Sys2Proof/Machine/State.lean ====
section
/-! DEFINITION. The state of the MB-6, block by block, and its value after a power-on reset. Plain data throughout. -/

namespace Sys2Proof.Machine

/-! ## Target Directory (01) -/

/-- Presence states of 01 R2 and section 1.4. -/
inductive Presence
  | vacant | unconfirmed | present | suspect | missing | withdrawing
deriving DecidableEq, Repr

/-- Whether transactions carry the packet check byte (01 R2). -/
inductive CheckMode
  | none | pec
deriving DecidableEq, Repr

/-- A directory entry (01 R2). In VACANT only `presence` has meaning; the other fields then hold the values of `Entry.vacant` (log 14). -/
structure Entry where
  presence : Presence
  segment : SegId
  address : Addr
  check : CheckMode
  label : Half
  threshold : Nat
  misses : Nat
  refs : Nat
deriving DecidableEq, Repr

/-- An entry that holds no target (01 R2, R4). -/
def Entry.vacant : Entry := ⟨.vacant, 0, 0#7, .none, 0#16, 0, 0, 0⟩

/-! ## Conversation Pool (02) -/

/-- A slot number with the slot's generation (02 R22). -/
structure Handle where
  slot : SlotId
  gen : Gen
deriving DecidableEq, Repr

/-- Poll banks A and B (07 R124). -/
inductive Bank
  | a | b
deriving DecidableEq, Repr

/-- The other of the two banks. -/
def Bank.other : Bank → Bank
  | .a => .b
  | .b => .a

/-- Who created a conversation (02 R24). -/
inductive Origin
  | host
  | poll (bank : Bank) (index : PollId)
deriving DecidableEq, Repr

/-- The device a conversation addresses (02 R24). -/
inductive Target
  | directory (i : TargetId)
  | raw (segment : SegId) (address : Addr) (check : CheckMode)
deriving DecidableEq, Repr

/-- Service class (02 R24). -/
inductive Class
  | normal | urgent
deriving DecidableEq, Repr

/-- What the pool does on entering DONE (02 R24). -/
inductive ReportMode
  | notify | quiet | fire
deriving DecidableEq, Repr

/-- Step retries, retry gap in ms and arbitration budget (02 R24). -/
structure RetrySettings where
  retries : Nat
  gap : Nat
  budget : Nat
deriving DecidableEq, Repr

/-- The settings taken when the optional part is absent (02 R24). -/
def RetrySettings.default : RetrySettings := ⟨Config.defaultRetries, Config.defaultGap, Config.defaultBudget⟩

/-- A step record (02 R25) with its flags (02 R26). -/
inductive Step
  | quick (read join : Bool)
  | write (command : Option Byte) (bytes : List Byte) (join tolerate : Bool)
  | read (command : Option Byte) (length : Nat) (join : Bool)
  | readBlock (command : Byte) (join : Bool)
  | waitUntil (command : Byte) (length : Nat) (mask want : List Byte) (interval limit : Nat)
  | pause (duration : Nat)
deriving DecidableEq, Repr

/-- Causes of a stop request (02 R24, R35). -/
inductive StopCause
  | cancelled | expired | withdrawn
deriving DecidableEq, Repr

/-- Conversation outcomes (05 R104); `segmentOff` stands in POLL_FAILED reports only (07 R141). -/
inductive ConvOutcome
  | ok | nakAddress | nakData | pecMismatch | arbExhausted | stallTimeout | busFault | badCount | conditionTimeout
  | cancelled | expired | withdrawn | segmentReset | segmentOff
deriving DecidableEq, Repr

/-- The result of a conversation (05 R103). -/
structure ConvResult where
  outcome : ConvOutcome
  completed : Nat
  failing : Option Nat
  bytes : List Byte
  lastValue : Option (List Byte)
deriving DecidableEq, Repr

/-- The conversation record of a slot (02 R24) with the slot's two timers (02 R30, R34).
A timer is `none` when stopped and `some n` when it runs, started with n ms (log 5). -/
structure Conv where
  origin : Origin
  target : Target
  cls : Class
  mode : Option ReportMode
  retry : RetrySettings
  deadline : Option Nat
  steps : List Step
  stop : Option StopCause
  result : Option ConvResult
  assemblyTimer : Option Nat
  deadlineTimer : Option Nat
deriving DecidableEq, Repr

/-- What the record of a FREE slot is held as (02 R21: it holds none; log 14). -/
def Conv.blank : Conv := ⟨.host, .directory 0, .normal, none, .default, none, [], none, none, none, none⟩

/-- Slot states (02 R21). -/
inductive SlotState
  | free | assembling | queued | running | done
deriving DecidableEq, Repr

/-- A pool slot (02 R21). -/
structure Slot where
  gen : Gen
  state : SlotState
  conv : Conv
deriving DecidableEq, Repr

/-- A slot after a device reset (02 R21). -/
def Slot.initial : Slot := ⟨0#11, .free, .blank⟩

/-! ## Segments: queue (03), engine (04, 05), receiver and sweep (06) -/

/-- Segment states (04 R58). -/
inductive SegState
  | off | idle | active | recovering | blocked
deriving DecidableEq, Repr

/-- Segment speeds (04 R59). -/
inductive Speed
  | khz100 | khz400
deriving DecidableEq, Repr

/-- The configuration record of a segment (04 R59). -/
structure SegConfig where
  enabled : Bool
  speed : Speed
  stallLimit : Nat
  ownAddress : Addr
  broadcast : Bool
  sweepEnable : Bool
  sweepAddress : Addr
deriving DecidableEq, Repr

/-- The defaults of 04 R59. -/
def SegConfig.default : SegConfig :=
  ⟨false, .khz100, Config.defaultStallLimit, 0#7, false, false, Config.defaultSweepAddress⟩

/-- Bus ownership (04 R63); a segment that is OFF holds none. -/
inductive Owner
  | nobody | free | taken
deriving DecidableEq, Repr

/-- What the engine is doing for its conversation (05 R84). A transaction has its half (04 R67: the write half, or the read half after
the repeated START), its check mode as read at its start (01 R7), and its position on the wire. A timed wait holds its duration in ms. -/
inductive Phase
  | transaction (readHalf pec : Bool) (pos : BusPos)
  | retryGap (ms : Nat)
  | interval (ms : Nat)
  | pause (ms : Nat)
deriving DecidableEq, Repr

/-- The running context (05 R84). `unitData` is the length of the read data when the unit began: what a rollback returns to
(05 R92; the model's own field, log 17). -/
structure Context where
  current : Nat
  unitStart : Nat
  phase : Phase
  retryCount : Nat
  losses : Nat
  attempt : Nat
  completed : Nat
  readData : List Byte
  stepData : List Byte
  lastValue : Option (List Byte)
  unitData : Nat
deriving DecidableEq, Repr

/-- The running work of an engine: none, a conversation, or an alert sweep at a position on the wire (03 R53, 06 R119). -/
inductive Work
  | nothing
  | conversation (h : Handle) (ctx : Context)
  | sweep (pos : BusPos)
deriving DecidableEq, Repr

/-- Kinds of fault (04 R82). -/
inductive FaultKind
  | stallTimeout | busFault | recoveryFailed
deriving DecidableEq, Repr

/-- The fault a segment's record holds (04 R82). Handle and step index are absent together. -/
structure FaultRecord where
  kind : FaultKind
  running : Option (Handle × Nat)
  byteIndex : Option Nat
  further : Nat
deriving DecidableEq, Repr

/-- Kinds of inbox message (06 R113). -/
inductive InboxKind
  | direct | broadcast
deriving DecidableEq, Repr

/-- The reception record of a target receiver (06 R105). DIRECT_WRITE and BROADCAST_WRITE are `write`; the reservation is held in them
and in no other role. `directRead` holds the free-place count that its first byte sends (06 R111). -/
inductive Reception
  | nothing
  | write (kind : InboxKind) (bytes : List Byte) (truncated : Bool)
  | directRead (freePlaces : Nat)
  | passive
deriving DecidableEq, Repr

/-- Sweep states (06 R117). The 10 ms holdoff timer runs exactly in `holdoff`. -/
inductive Sweep
  | idle | pending | running | holdoff | stuck
deriving DecidableEq, Repr

/-- One segment: its engine, its queue, its receiver and its sweep. -/
structure Segment where
  -- engine (04 R58, R59, R63, R78, R82; 05 R84)
  state : SegState
  config : SegConfig
  owner : Owner
  freeCount : Bool
  work : Work
  fault : Option FaultRecord
  fromBlocked : Bool
  pulses : Nat
  -- queue (03 R44)
  urgent : List Handle
  normal : List Handle
  streak : Nat
  held : Bool
  -- receiver (06 R105) and its drive of the last ninth bit
  reception : Reception
  ackDriven : Bool
  -- alert sweep (06 R117) and the level of the ALR pin
  sweep : Sweep
  emptySweeps : Nat
  alrLow : Bool
deriving DecidableEq, Repr

/-- A segment after a device reset, with the ALR pin at the given level (04 R58, R59, 03 R44, 06 R105, R117). -/
def Segment.initial (alrLow : Bool) : Segment where
  state := .off
  config := .default
  owner := .nobody
  freeCount := false
  work := .nothing
  fault := none
  fromBlocked := false
  pulses := 0
  urgent := []
  normal := []
  streak := 0
  held := false
  reception := .nothing
  ackDriven := false
  sweep := .idle
  emptySweeps := 0
  alrLow := alrLow

/-! ## Alert Inbox (06) -/

/-- A stored message (06 R113). -/
structure InboxEntry where
  segment : SegId
  kind : InboxKind
  bytes : List Byte
  truncated : Bool
  repeats : Nat
deriving DecidableEq, Repr

/-- The Alert Inbox (06 R113). -/
structure Inbox where
  entries : List InboxEntry
  reserved : Nat
  refusals : Nat
deriving DecidableEq, Repr

/-! ## Poll Scheduler (07) -/

/-- What a successful read of a poll entry reports (07 R125). -/
inductive Policy
  | onChange | every | failOnly
deriving DecidableEq, Repr

/-- The configuration fields of a poll entry (07 R125). `mask` has `length` bytes. -/
structure PollConfig where
  target : TargetId
  command : Byte
  length : Nat
  period : Nat
  phase : Nat
  mask : List Byte
  policy : Policy
  cls : Class
deriving DecidableEq, Repr

/-- A used poll entry: its configuration and its run-time fields (07 R125). -/
structure PollEntry where
  config : PollConfig
  lastValue : Option (List Byte)
  failing : Bool
  overrun : Nat
  skipReported : Bool
  outstanding : Option Handle
deriving DecidableEq, Repr

/-- A poll bank: 48 entries, each unused or used (07 R124, R125). -/
abbrev PollBank := Vector (Option PollEntry) 48

/-- The Poll Scheduler's own state (07 R124). -/
structure Schedule where
  running : Bool
  frameLength : Nat
  frame : Word
  timer : Option Nat
  active : Bank
  swapPending : Bool
  bankA : PollBank
  bankB : PollBank
deriving DecidableEq, Repr

/-- The schedule after a device reset (07 R124). -/
def Schedule.initial : Schedule where
  running := false
  frameLength := Config.defaultFrameLength
  frame := 0#32
  timer := none
  active := .a
  swapPending := false
  bankA := Vector.replicate 48 none
  bankB := Vector.replicate 48 none

/-! ## Report Queue (08) -/

/-- Reset reasons (08 R156). -/
inductive ResetReason
  | power | pin | request
deriving DecidableEq, Repr

/-- The two states a SEGMENT_STATE report names (08, section 8.5). -/
inductive BusReport
  | blocked | recovered
deriving DecidableEq, Repr

/-- The report kinds and what each carries (08, section 8.5). -/
inductive ReportBody
  | ready (reason : ResetReason)
  | completed (h : Handle) (outcome : ConvOutcome) (steps : Nat) (bytes : List Byte) (more : Bool)
  | failed (h : Handle) (outcome : ConvOutcome) (failing : Nat)
  | assemblyExpired (h : Handle)
  | targetState (index : TargetId) (label : Half) (state : Presence)
  | change (bank : Bank) (index : PollId) (target : TargetId) (label : Half) (old : Option (List Byte)) (new : List Byte)
  | sample (bank : Bank) (index : PollId) (value : List Byte)
  | pollFailed (bank : Bank) (index : PollId) (outcome : ConvOutcome)
  | pollOverrun (bank : Bank) (index : PollId)
  | pollSkipped (bank : Bank) (index : PollId)
  | bankSwapped (active : Bank)
  | inbox (segment : SegId) (kind : InboxKind) (length : Nat)
  | alert (segment : SegId) (index : TargetId) (label : Half) (responder : Addr)
  | alertUnknown (segment : SegId) (responder : Addr)
  | alertStuck (segment : SegId)
  | segmentState (segment : SegId) (state : BusReport)
  | reportsLost (count : Nat)
deriving DecidableEq, Repr

/-- A report in the list with its number (08 R148). -/
structure Report where
  seq : Half
  body : ReportBody
deriving DecidableEq, Repr

/-- The Report Queue (08 R147). `mask` holds the bits of SET_REPORT_MASK (10 R183). -/
structure ReportQueue where
  list : List Report
  next : Half
  mask : Word
  mark : Option Nat
deriving DecidableEq, Repr

/-- The report queue before READY is appended: empty, numbers from 0 (08 R147, R156). -/
def ReportQueue.empty : ReportQueue := ⟨[], 0#16, 0#32, none⟩

/-- The report queue at the end of a device reset: READY with number 0 (08 R147, R156). -/
def ReportQueue.ready (reason : ResetReason) : ReportQueue := ⟨[⟨0#16, .ready reason⟩], 1#16, 0#32, none⟩

/-! ## Message Port (09) -/

/-- The transfer as the port follows it: none while MSEL is high, in progress, or ignored to its end (09 R159, R174, R175). -/
inductive Transfer
  | idle | active | ignored
deriving DecidableEq, Repr

/-- The parse state with the inbound frame's bytes so far (09 R160, R161). -/
inductive Parser
  | hunt
  | kind
  | tag (kind : Byte)
  | length (kind tag : Byte)
  | body (kind tag len : Byte) (got : List Byte)
  | check (kind tag len : Byte) (got : List Byte) (first : Option Byte)
  | done
deriving DecidableEq, Repr

/-- A frame without its marker, length and check bytes, which follow from it (10 R177). -/
structure Frame where
  kind : Byte
  tag : Byte
  body : List Byte
deriving DecidableEq, Repr

/-- The outbound choice of a transfer (09 R160, R166): none; a frame from the reply queue or from the report list with the number of its
bytes clocked out; or a frame already delivered. -/
inductive Outbound
  | nothing
  | chosen (isReport : Bool) (frame : Frame) (clocked : Nat)
  | delivered
deriving DecidableEq, Repr

/-- The six link counters (09 R172). -/
structure Counters where
  accepted : Nat
  checkErrors : Nat
  truncated : Nat
  strays : Nat
  unanswered : Nat
  resends : Nat
deriving DecidableEq, Repr

/-- All six counters at 0. -/
def Counters.zero : Counters := ⟨0, 0, 0, 0, 0, 0⟩

/-- Attention modes (09 R169). -/
inductive Attention
  | off | any | replies
deriving DecidableEq, Repr

/-- The Message Port (09 R160). -/
structure Port where
  transfer : Transfer
  parser : Parser
  outbound : Outbound
  replies : List Frame
  counters : Counters
  attention : Attention
  restartPending : Bool
  fallback : Option Nat
deriving DecidableEq, Repr

/-- The port after a device reset, with the transfer as MSEL leaves it (09 R160, R174, R175). -/
def Port.initial (transfer : Transfer) : Port := ⟨transfer, .hunt, .nothing, [], .zero, .any, false, none⟩

/-! ## The device and the block's state -/

/-- The nine blocks of the device (00, Block diagram) and the level of RSTN (09 R175). -/
structure Device where
  directory : Vector Entry 64
  pool : Vector Slot 32
  segments : Vector Segment 4
  inbox : Inbox
  schedule : Schedule
  reports : ReportQueue
  port : Port
  rstnLow : Bool
deriving DecidableEq, Repr

/-- The machine: the device, and the queue of the commands that wait, first in, first out. -/
structure State where
  dev : Device
  pending : List Instr
deriving DecidableEq, Repr

/-- No command of the MB-6 faults: 09 R164 answers every request or counts it, and every event has an effect in every state or none (log 6).
Closed, with no constructor: nothing raises a fault. -/
inductive Fault
deriving DecidableEq, Repr

/-- Why a command has no meaning. -/
inductive Refusal
  /-- Raised by `exec` for a row that has no meaning yet; no arm raises it now. Safe: the model stops. -/
  | notModelled (mnemonic : String)
deriving DecidableEq, Repr

/-- What a command answers. -/
abbrev Answer := Host.Outcome State Fault Refusal

/-- The device after a power-on reset (08 R156 with reason POWER): every block at its reset value.
The input pins ALR, MSEL and RSTN are high (log 13, DESIGN CHOICE). -/
def Device.reset : Device where
  directory := Vector.replicate 64 Entry.vacant
  pool := Vector.replicate 32 Slot.initial
  segments := Vector.replicate 4 (Segment.initial false)
  inbox := ⟨[], 0, 0⟩
  schedule := .initial
  reports := .ready .power
  port := .initial .idle
  rstnLow := false

/-- The machine right after a power-on reset, with no command waiting. -/
def State.reset : State := ⟨Device.reset, []⟩

end Sys2Proof.Machine
end

