-- ==== Sys2Proof/Machine/Ops.lean ====
section
/-! DEFINITION. The named operations over the device's tables, bytes and queues: table access, byte order, the two checks
(04 R69, 10 R177), posting a report (08 R150), directory references (01 R8, R17), address events (01 R10 to R12). -/

namespace Sys2Proof.Machine

/-! ## Tables -/

/-- A table with the element at `i` changed by `f`. -/
def upd {α : Type} {n : Nat} (v : Vector α n) (i : Fin n) (f : α → α) : Vector α n :=
  v.set i.val (f (v.get i)) i.isLt

/-- A table with every element changed by `f`. -/
def mapTable {α β : Type} {n : Nat} (f : Fin n → α → β) (v : Vector α n) : Vector β n :=
  ⟨((List.finRange n).map fun i => f i (v.get i)).toArray, by simp⟩

def Device.entry (d : Device) (i : TargetId) : Entry := d.directory.get i
def Device.slot (d : Device) (i : SlotId) : Slot := d.pool.get i
def Device.seg (d : Device) (i : SegId) : Segment := d.segments.get i

def Device.updEntry (i : TargetId) (f : Entry → Entry) (d : Device) : Device := { d with directory := upd d.directory i f }
def Device.updSlot (i : SlotId) (f : Slot → Slot) (d : Device) : Device := { d with pool := upd d.pool i f }
def Device.updSeg (i : SegId) (f : Segment → Segment) (d : Device) : Device := { d with segments := upd d.segments i f }
def Device.updPort (f : Port → Port) (d : Device) : Device := { d with port := f d.port }
def Device.updSchedule (f : Schedule → Schedule) (d : Device) : Device := { d with schedule := f d.schedule }
def Device.updInbox (f : Inbox → Inbox) (d : Device) : Device := { d with inbox := f d.inbox }
def Device.updReports (f : ReportQueue → ReportQueue) (d : Device) : Device := { d with reports := f d.reports }

/-- The bank under a name (07 R124). -/
def Schedule.bank (s : Schedule) : Bank → PollBank
  | .a => s.bankA
  | .b => s.bankB

/-- The schedule with the bank under a name changed. -/
def Schedule.updBank (bank : Bank) (f : PollBank → PollBank) (s : Schedule) : Schedule :=
  match bank with
  | .a => { s with bankA := f s.bankA }
  | .b => { s with bankB := f s.bankB }

/-- The shadow bank's name: the one the selector does not name (07 R124). -/
def Schedule.shadow (s : Schedule) : Bank := s.active.other

/-- A poll entry of a bank. -/
def Device.poll (d : Device) (bank : Bank) (i : PollId) : Option PollEntry := (d.schedule.bank bank).get i

/-- The device with a poll entry of a bank replaced. -/
def Device.setPoll (bank : Bank) (i : PollId) (e : Option PollEntry) (d : Device) : Device :=
  d.updSchedule fun s => s.updBank bank fun v => upd v i fun _ => e

/-! ## Counters, bytes and checks -/

/-- Counts that stay at 65535 (06 R113, 08 R150, 09 R172). -/
def satInc (n : Nat) : Nat := min (n + 1) 65535

/-- Counts that stay at 255 (04 R82, 06 R114, 07 R139). -/
def satInc255 (n : Nat) : Nat := min (n + 1) 255

/-- A number as one byte. -/
def byte (n : Nat) : Byte := BitVec.ofNat 8 n

/-- A two-byte field, least significant byte first (10 R178). -/
def le16 (w : Half) : List Byte := [w.setWidth 8, (w >>> 8).setWidth 8]

/-- A four-byte field, least significant byte first (10 R178). -/
def le32 (w : Word) : List Byte := [w.setWidth 8, (w >>> 8).setWidth 8, (w >>> 16).setWidth 8, (w >>> 24).setWidth 8]

/-- The number a two-byte field holds. -/
def ofLe16 (lo hi : Byte) : Half := hi ++ lo

/-- The number a four-byte field holds. -/
def ofLe32 (b0 b1 b2 b3 : Byte) : Word := b3 ++ b2 ++ b1 ++ b0

/-- A flag's byte (10 R178): 0 for clear; for set, a byte that is not 0, which one being free (log 11). -/
def flagByte (b : Bool) : Byte :=
  if b then (if Config.setFlagChoice = 0#8 then 1#8 else Config.setFlagChoice) else 0#8

/-- Bytes in a field of fixed width: the unused ones are 0 (10 R178; log 12). -/
def padTo (n : Nat) (l : List Byte) : List Byte := (l ++ List.replicate n 0#8).take n

/-- One bit of the frame check: polynomial 0x1021, most significant bit first (10 R177). -/
def crc16Bit (c : Half) : Half := if c.msb then (c <<< 1) ^^^ 0x1021#16 else c <<< 1

/-- One byte of the frame check. -/
def crc16Byte (c : Half) (b : Byte) : Half := Nat.repeat crc16Bit 8 (c ^^^ (b.setWidth 16 <<< 8))

/-- The frame check: CRC-16 from 0xFFFF (10 R177). -/
def crc16 (l : List Byte) : Half := l.foldl crc16Byte 0xFFFF#16

/-- One bit of the packet check: polynomial x^8 + x^2 + x + 1 (04 R69). -/
def crc8Bit (c : Byte) : Byte := if c.msb then (c <<< 1) ^^^ 0x07#8 else c <<< 1

/-- One byte of the packet check. -/
def crc8Byte (c b : Byte) : Byte := Nat.repeat crc8Bit 8 (c ^^^ b)

/-- The packet check: CRC-8 from 0 over a check span (04 R69). -/
def crc8 (l : List Byte) : Byte := l.foldl crc8Byte 0#8

/-! ## Posting a report (08 R150) -/

/-- The mask bit of a report kind (10 R183); READY and REPORTS_LOST have none. -/
def ReportBody.maskBit : ReportBody → Option Nat
  | .ready _ => none
  | .completed .. => some 1
  | .failed .. => some 2
  | .assemblyExpired _ => some 3
  | .targetState .. => some 4
  | .change .. => some 5
  | .sample .. => some 6
  | .pollFailed .. => some 7
  | .pollOverrun .. => some 8
  | .pollSkipped .. => some 9
  | .bankSwapped _ => some 10
  | .inbox .. => some 11
  | .alert .. => some 12
  | .alertUnknown .. => some 13
  | .alertStuck _ => some 14
  | .segmentState .. => some 15
  | .reportsLost _ => none

/-- A report's kind is in a mask (08 R155). -/
def ReportBody.maskedBy (b : ReportBody) (mask : Word) : Bool := b.maskBit.any mask.getLsbD

/-- The count of a REPORTS_LOST marker. -/
def ReportBody.lostCount : ReportBody → Option Nat
  | .reportsLost n => some n
  | _ => none

/-- The count of the marker that stands in the list, if one does (08 R151: it appears once). -/
def ReportQueue.marker (q : ReportQueue) : Option Nat := q.list.findSome? fun r => r.body.lostCount

/-- A marker's count raised by one, any other report as it is (08 R150, case 2). -/
def Report.countLost (r : Report) : Report :=
  match r.body with
  | .reportsLost n => { r with body := .reportsLost (satInc n) }
  | _ => r

/-- A report appended at the tail with the next sequence number (08 R148). -/
def ReportQueue.append (b : ReportBody) (q : ReportQueue) : ReportQueue :=
  { q with list := q.list ++ [⟨q.next, b⟩], next := q.next + 1#16 }

/-- The posting rule: masked, marker present, room, last place (08 R150). -/
def ReportQueue.post (b : ReportBody) (q : ReportQueue) : ReportQueue :=
  if b.maskedBy q.mask then q
  else if q.marker.isSome then { q with list := q.list.map Report.countLost }
  else if q.list.length < Config.reportPlaces - 1 then q.append b
  else q.append (.reportsLost 1)

/-- A block offers a report to the queue. -/
def post (b : ReportBody) (d : Device) : Device := d.updReports (·.post b)

/-! ## Directory references (01 R8, R17) and address events (01 R9 to R12) -/

/-- One reference more (01 R8). -/
def raiseRef (i : TargetId) (d : Device) : Device := d.updEntry i fun e => { e with refs := e.refs + 1 }

/-- One reference less; a WITHDRAWING entry that loses its last reference becomes VACANT and TARGET_STATE is posted (01 R8, R17). -/
def releaseRef (i : TargetId) (d : Device) : Device :=
  let e := d.entry i
  if e.presence = .withdrawing ∧ e.refs ≤ 1 then
    post (.targetState i e.label .vacant) (d.updEntry i fun _ => .vacant)
  else d.updEntry i fun e => { e with refs := e.refs - 1 }

/-- A conversation's reference on its directory target; a raw target holds none (01 R8). -/
def raiseTarget (t : Target) (d : Device) : Device :=
  match t with
  | .directory i => raiseRef i d
  | .raw .. => d

/-- The release of a conversation's reference (02 R37, step 2). -/
def releaseTarget (t : Target) (d : Device) : Device :=
  match t with
  | .directory i => releaseRef i d
  | .raw .. => d

/-- An ACK event (01 R10). -/
def ackEvent (i : TargetId) (d : Device) : Device :=
  let e := d.entry i
  let d' := d.updEntry i fun e => { e with presence := .present, misses := 0 }
  match e.presence with
  | .unconfirmed | .missing => post (.targetState i e.label .present) d'
  | .present | .suspect => d'
  | .withdrawing | .vacant => d

/-- A NAK event (01 R11). -/
def nakEvent (i : TargetId) (d : Device) : Device :=
  let e := d.entry i
  let n := min (e.misses + 1) e.threshold
  match e.presence with
  | .unconfirmed | .present | .suspect =>
    if n = e.threshold then
      post (.targetState i e.label .missing) (d.updEntry i fun e => { e with presence := .missing, misses := n })
    else
      d.updEntry i fun e =>
        { e with misses := n, presence := if e.presence = .present then .suspect else e.presence }
  | .missing => d.updEntry i fun e => { e with misses := n }
  | .withdrawing | .vacant => d

/-- The address event of one transaction (01 R9): sent for a directory target when the acknowledge bit of the address byte was sampled. -/
def addressEvent (t : Target) (sampled : Option Bool) (d : Device) : Device :=
  match t, sampled with
  | .directory i, some true => ackEvent i d
  | .directory i, some false => nakEvent i d
  | _, _ => d

/-! ## Conversations: what the record says of its target (02 R24) -/

/-- The segment of a conversation's target. -/
def targetSegment (d : Device) : Target → SegId
  | .directory i => (d.entry i).segment
  | .raw s _ _ => s

/-- The bus address of a conversation's target. -/
def targetAddress (d : Device) : Target → Addr
  | .directory i => (d.entry i).address
  | .raw _ a _ => a

/-- The check mode as read at the start of a transaction (01 R7, 04 R67). -/
def targetPec (d : Device) : Target → Bool
  | .directory i => (d.entry i).check = .pec
  | .raw _ _ c => c = .pec

/-- The handle of the conversation in a slot (02 R22). -/
def Device.handle (d : Device) (i : SlotId) : Handle := ⟨i, (d.slot i).gen⟩

/-- The lowest-numbered FREE slot (02 R23). -/
def lowestFree (d : Device) : Option SlotId := (List.finRange 32).find? fun i => (d.slot i).state = .free

/-- How many slots the host holds: HOST origin, in any state but FREE (02 R23). -/
def hostHeld (d : Device) : Nat :=
  (List.finRange 32).countP fun i => (d.slot i).state ≠ .free ∧ (d.slot i).conv.origin = .host

/-- A slot returns to FREE: its generation rises by one, 2047 wrapping to 0 (02 R21). -/
def freeSlot (i : SlotId) (d : Device) : Device := d.updSlot i fun s => ⟨s.gen + 1#11, .free, .blank⟩

end Sys2Proof.Machine
end

