-- ==== Sys2Proof/Machine/Flags.lean ====
section
/-! DEFINITION. The codes of 10 R183, the outputs ATTN and MDO, and the indications that replies carry (sub-state, running, ownership). -/

namespace Sys2Proof.Machine

/-! ## Codes (10 R183) -/

/-- Status codes of a reply. -/
inductive Status
  | ok | pending | busy | badLength | badField | unknownTarget | duplicate | directoryFull | inUse | inPoll | addressIsOwn | poolFull
  | unknownConversation | wrongState | limit | segmentOff | targetGone | scheduleRunning | swapPending | empty | alreadyDone | restarting
deriving DecidableEq, Repr

def Status.code : Status → Byte
  | .ok => 0x00#8
  | .pending => 0x01#8
  | .busy => 0x02#8
  | .badLength => 0x03#8
  | .badField => 0x04#8
  | .unknownTarget => 0x05#8
  | .duplicate => 0x06#8
  | .directoryFull => 0x07#8
  | .inUse => 0x08#8
  | .inPoll => 0x09#8
  | .addressIsOwn => 0x0A#8
  | .poolFull => 0x0B#8
  | .unknownConversation => 0x0C#8
  | .wrongState => 0x0D#8
  | .limit => 0x0E#8
  | .segmentOff => 0x0F#8
  | .targetGone => 0x10#8
  | .scheduleRunning => 0x11#8
  | .swapPending => 0x12#8
  | .empty => 0x13#8
  | .alreadyDone => 0x14#8
  | .restarting => 0x15#8

def ConvOutcome.code : ConvOutcome → Byte
  | .ok => 0x00#8
  | .nakAddress => 0x01#8
  | .nakData => 0x02#8
  | .pecMismatch => 0x03#8
  | .arbExhausted => 0x04#8
  | .stallTimeout => 0x05#8
  | .busFault => 0x06#8
  | .badCount => 0x07#8
  | .conditionTimeout => 0x08#8
  | .cancelled => 0x10#8
  | .expired => 0x11#8
  | .withdrawn => 0x12#8
  | .segmentReset => 0x13#8
  | .segmentOff => 0x20#8

/-- The outcome a stop cause gives (05 R98); causes use the codes of these outcomes (10 R183). -/
def StopCause.outcome : StopCause → ConvOutcome
  | .cancelled => .cancelled
  | .expired => .expired
  | .withdrawn => .withdrawn

def ResetReason.code : ResetReason → Byte
  | .power => 0#8
  | .pin => 1#8
  | .request => 2#8

def Presence.code : Presence → Byte
  | .vacant => 0#8
  | .unconfirmed => 1#8
  | .present => 2#8
  | .suspect => 3#8
  | .missing => 4#8
  | .withdrawing => 5#8

def CheckMode.code : CheckMode → Byte
  | .none => 0#8
  | .pec => 1#8

/-- FREE has no code: no reply reports it (10 R183). It is given 0, which no table entry uses. -/
def SlotState.code : SlotState → Byte
  | .free => 0#8
  | .assembling => 1#8
  | .queued => 2#8
  | .running => 3#8
  | .done => 4#8

def Class.code : Class → Byte
  | .normal => 0#8
  | .urgent => 1#8

def SegState.code : SegState → Byte
  | .off => 0#8
  | .idle => 1#8
  | .active => 2#8
  | .recovering => 3#8
  | .blocked => 4#8

def Speed.code : Speed → Byte
  | .khz100 => 0#8
  | .khz400 => 1#8

def Owner.code : Owner → Byte
  | .free => 0#8
  | .taken => 1#8
  | .nobody => 2#8

def FaultKind.code : FaultKind → Byte
  | .stallTimeout => 1#8
  | .busFault => 2#8
  | .recoveryFailed => 3#8

def Policy.code : Policy → Byte
  | .onChange => 0#8
  | .every => 1#8
  | .failOnly => 2#8

def Attention.code : Attention → Byte
  | .off => 0#8
  | .any => 1#8
  | .replies => 2#8

def InboxKind.code : InboxKind → Byte
  | .direct => 0#8
  | .broadcast => 1#8

def Bank.code : Bank → Byte
  | .a => 0#8
  | .b => 1#8

def BusReport.code : BusReport → Byte
  | .blocked => 0#8
  | .recovered => 1#8

/-- Reasons of a REJECT frame (10 R183). -/
inductive RejectReason
  | check | length | unknownKind
deriving DecidableEq, Repr

def RejectReason.code : RejectReason → Byte
  | .check => 0x01#8
  | .length => 0x02#8
  | .unknownKind => 0x03#8

/-- The request kinds (10 R183). -/
inductive RequestKind
  | ping | restart | linkStatus | setAttention | setReportMask
  | addTarget | modifyTarget | withdrawTarget | readTarget | listTargets
  | configureSegment | segmentStatus | holdSegment | releaseSegment | resetSegment | flushSegment | readFault
  | openConversation | appendSteps | submitConversation | runConversation | cancelConversation | conversationStatus | fetchResult
  | setFrame | startSchedule | stopSchedule | putPoll | clearPoll | clearShadow | copyActive | commitBank | readPoll
  | fetchInbox | inboxStatus
deriving DecidableEq, Repr

def RequestKind.code : RequestKind → Byte
  | .ping => 0x01#8
  | .restart => 0x02#8
  | .linkStatus => 0x03#8
  | .setAttention => 0x04#8
  | .setReportMask => 0x05#8
  | .addTarget => 0x10#8
  | .modifyTarget => 0x11#8
  | .withdrawTarget => 0x12#8
  | .readTarget => 0x13#8
  | .listTargets => 0x14#8
  | .configureSegment => 0x20#8
  | .segmentStatus => 0x21#8
  | .holdSegment => 0x22#8
  | .releaseSegment => 0x23#8
  | .resetSegment => 0x24#8
  | .flushSegment => 0x25#8
  | .readFault => 0x26#8
  | .openConversation => 0x30#8
  | .appendSteps => 0x31#8
  | .submitConversation => 0x32#8
  | .runConversation => 0x33#8
  | .cancelConversation => 0x34#8
  | .conversationStatus => 0x35#8
  | .fetchResult => 0x36#8
  | .setFrame => 0x40#8
  | .startSchedule => 0x41#8
  | .stopSchedule => 0x42#8
  | .putPoll => 0x43#8
  | .clearPoll => 0x44#8
  | .clearShadow => 0x45#8
  | .copyActive => 0x46#8
  | .commitBank => 0x47#8
  | .readPoll => 0x48#8
  | .fetchInbox => 0x50#8
  | .inboxStatus => 0x51#8

/-- Every request kind, in the order of the table. -/
def RequestKind.all : List RequestKind :=
  [.ping, .restart, .linkStatus, .setAttention, .setReportMask,
   .addTarget, .modifyTarget, .withdrawTarget, .readTarget, .listTargets,
   .configureSegment, .segmentStatus, .holdSegment, .releaseSegment, .resetSegment, .flushSegment, .readFault,
   .openConversation, .appendSteps, .submitConversation, .runConversation, .cancelConversation, .conversationStatus, .fetchResult,
   .setFrame, .startSchedule, .stopSchedule, .putPoll, .clearPoll, .clearShadow, .copyActive, .commitBank, .readPoll,
   .fetchInbox, .inboxStatus]

/-- The request a kind byte names; none for every other byte, reply, REPORT and REJECT kinds among them (09 R162). -/
def RequestKind.ofCode (b : Byte) : Option RequestKind := RequestKind.all.find? fun k => k.code == b

/-- The kind of a reply to a request (10 R177). -/
def replyKind (kind : Byte) : Byte := kind + 0x80#8

/-- Kinds of the device's own frames (09 R168). -/
def reportKind : Byte := 0xE0#8
def rejectKind : Byte := 0xEF#8

/-! ## Indications of a segment -/

/-- The position of the engine's transaction: none outside a transaction, in the timed waits among others (04 R62, 05 R84). -/
def Work.pos : Work → Option BusPos
  | .nothing => none
  | .conversation _ ctx =>
    match ctx.phase with
    | .transaction _ _ p => some p
    | _ => none
  | .sweep p => some p

/-- The engine drives the wire: a transaction from START to STOP (04 R64). -/
def Work.onWire (w : Work) : Bool :=
  match w.pos with
  | none => false
  | some .waitFree => false
  | some _ => true

/-- The sub-state code of a position (10 R183); data bytes are READ_DATA in a transaction that reads. -/
def posCode (reads : Bool) : BusPos → Byte
  | .waitFree => 1#8
  | .start => 2#8
  | .address => 3#8
  | .data _ => if reads then 5#8 else 4#8
  | .checkByte _ => 6#8
  | .stop _ _ => 7#8

/-- The running indication and its handle: NONE, CONVERSATION with the handle, or SWEEP (03 R53); without a handle its bytes are 0 (log 12). -/
def Work.indication : Work → Byte × Option Handle
  | .nothing => (0#8, none)
  | .conversation h _ => (1#8, some h)
  | .sweep _ => (2#8, none)

/-- A reception is in progress in the write roles and in DIRECT_READ (06 R105). -/
def Reception.inProgress : Reception → Bool
  | .nothing => false
  | .write .. => true
  | .directRead _ => true
  | .passive => false

/-- The byte the receiver sends next in a direct read, `acks` being the master's ninth bits after the bytes sent so far, oldest first (true
for ACK): the free-place count, then 0xFF for each further byte; nothing once the master has left a byte unacknowledged, when SDA is
released until the transaction ends (06 R111). -/
def Reception.sends (r : Reception) (acks : List Bool) : Option Byte :=
  match r with
  | .directRead free =>
    if acks.all id then some (if acks.isEmpty then byte free else 0xFF#8) else none
  | .nothing => none
  | .write .. => none
  | .passive => none

/-! ## Outputs of the port -/

/-- ATTN is low while the condition of the attention mode holds, and never while RSTN is low (09 R169, R175). -/
def Device.attnLow (d : Device) : Bool :=
  !d.rstnLow &&
  match d.port.attention with
  | .off => false
  | .any => !d.port.replies.isEmpty || !d.reports.list.isEmpty
  | .replies => !d.port.replies.isEmpty

end Sys2Proof.Machine
end

