-- ==== Sys2Proof/Machine/Layouts.lean ====
section
/-! DEFINITION. How frames, reports and records are laid out as bytes (10 R177, R178, R180, R182), and the MDO output. -/

namespace Sys2Proof.Machine

/-! ## Frames (10 R177) -/

/-- The marker byte of a frame. -/
def marker : Byte := 0x5A#8

/-- The bytes the check covers: kind, tag, length and body. -/
def Frame.payload (f : Frame) : List Byte := f.kind :: f.tag :: byte f.body.length :: f.body

/-- The check bytes over a payload, least significant byte first. -/
def checkBytes (payload : List Byte) : List Byte := le16 (crc16 payload)

/-- A whole frame as it goes out. -/
def Frame.bytes (f : Frame) : List Byte := marker :: (f.payload ++ checkBytes f.payload)

/-- A frame is 6 + L bytes long (09, section 9.2). -/
def Frame.length (f : Frame) : Nat := 6 + f.body.length

/-! ## Fields (10 R178, R180) -/

/-- A handle: slot number, then the generation in two bytes. -/
def Handle.bytes (h : Handle) : List Byte := byte h.slot.val :: le16 (h.gen.setWidth 16)

/-- A handle that may be absent: its bytes are then 0 (10 R178). -/
def handleField (h : Option Handle) : List Byte := (h.map Handle.bytes).getD [0#8, 0#8, 0#8]

/-- A one-byte number that may be absent. -/
def numberField (n : Option Nat) : Byte := byte (n.getD 0)

/-- A poll value, a mask or a WAIT_UNTIL value in its four bytes, first byte first. -/
def valueField (v : Option (List Byte)) : List Byte := padTo 4 (v.getD [])

/-! ## Reports (10 R182) -/

def ReportBody.code : ReportBody → Byte
  | .ready _ => 0x01#8
  | .completed .. => 0x02#8
  | .failed .. => 0x03#8
  | .assemblyExpired _ => 0x04#8
  | .targetState .. => 0x10#8
  | .change .. => 0x20#8
  | .sample .. => 0x21#8
  | .pollFailed .. => 0x22#8
  | .pollOverrun .. => 0x23#8
  | .pollSkipped .. => 0x24#8
  | .bankSwapped _ => 0x25#8
  | .inbox .. => 0x30#8
  | .alert .. => 0x31#8
  | .alertUnknown .. => 0x32#8
  | .alertStuck _ => 0x33#8
  | .segmentState .. => 0x40#8
  | .reportsLost _ => 0x7F#8

/-- The fields after kind and sequence number. -/
def ReportBody.fields : ReportBody → List Byte
  | .ready reason => [reason.code]
  | .completed h o n bytes more => h.bytes ++ [o.code, byte n, flagByte more] ++ bytes
  | .failed h o i => h.bytes ++ [o.code, byte i]
  | .assemblyExpired h => h.bytes
  | .targetState i label st => byte i.val :: le16 label ++ [st.code]
  | .change bank i target label old new =>
    [bank.code, byte i.val, byte target.val] ++ le16 label ++ [byte new.length, flagByte old.isSome] ++ valueField old ++ padTo 4 new
  | .sample bank i value => [bank.code, byte i.val, byte value.length] ++ padTo 4 value
  | .pollFailed bank i o => [bank.code, byte i.val, o.code]
  | .pollOverrun bank i => [bank.code, byte i.val]
  | .pollSkipped bank i => [bank.code, byte i.val]
  | .bankSwapped bank => [bank.code]
  | .inbox seg kind n => [byte seg.val, kind.code, byte n]
  | .alert seg i label r => [byte seg.val, byte i.val] ++ le16 label ++ [r.setWidth 8]
  | .alertUnknown seg r => [byte seg.val, r.setWidth 8]
  | .alertStuck seg => [byte seg.val]
  | .segmentState seg st => [byte seg.val, st.code]
  | .reportsLost n => le16 (BitVec.ofNat 16 n)

/-- The frame of a report (09 R168). -/
def Report.frame (r : Report) : Frame := ⟨reportKind, 0#8, r.body.code :: le16 r.seq ++ r.body.fields⟩

/-- A REJECT frame (09 R162, R168). -/
def rejectFrameOf (tag : Byte) (reason : RejectReason) : Frame := ⟨rejectKind, tag, [reason.code]⟩

/-! ## Replies -/

/-- What an owner answers: the status, and the fields after it (09 R164). -/
structure Reply where
  status : Status
  fields : List Byte
deriving DecidableEq, Repr

/-- A refused reply has the status alone (10 R178). -/
def refuse (s : Status) : Reply := ⟨s, []⟩

/-- The frame of a reply (09 R164, R168). -/
def Reply.frame (r : Reply) (kind tag : Byte) : Frame := ⟨replyKind kind, tag, r.status.code :: r.fields⟩

/-- The reply to a RESTART that was taken: kind 0x82 and status OK alone. Only that request makes such a frame (log 21). -/
def Frame.isRestartReply (f : Frame) : Bool := f.kind == replyKind RequestKind.restart.code && f.body == [Status.ok.code]

/-! ## The MDO output (09 R159, R166, R167, R174, R175) -/

/-- The byte the port clocks out next: not driven outside a transfer and while RSTN is low; the chosen frame's next byte;
0x00 when nothing is chosen and after delivery. In a transfer that is ignored it is 0x00 too: R174 says so of the reset by RESTART, and of
a transfer ignored under R175 the manual says nothing (the model's choice, log 34). -/
def Device.mdoByte (d : Device) : Option Byte :=
  if d.rstnLow || d.port.transfer == .idle then none
  else
    match d.port.outbound with
    | .chosen _ f n => some (f.bytes.getD n 0#8)
    | .nothing => some 0#8
    | .delivered => some 0#8

end Sys2Proof.Machine
end

