-- ==== Sys2Proof/Machine/Operands.lean ====
section
/-! DEFINITION. Reading a request's body: the lengths each kind allows (10 R178, R181), step records (10 R179), targets, handles and codes. -/

namespace Sys2Proof.Machine

/-! ## Fields of a body -/

/-- The byte at an offset. A body that passed its length check has every offset its layout names. -/
def byteAt (body : List Byte) (i : Nat) : Byte := body.getD i 0#8

/-- The two-byte field at an offset. -/
def halfAt (body : List Byte) (i : Nat) : Half := ofLe16 (byteAt body i) (byteAt body (i + 1))

/-- A flag at an offset: 0 clear, every other value set (10 R178). -/
def flagAt (body : List Byte) (i : Nat) : Bool := byteAt body i != 0#8

/-- A byte as an index below a bound. -/
def index (n : Nat) (b : Byte) : Option (Fin n) := if h : b.toNat < n then some ⟨b.toNat, h⟩ else none

/-- A number within a range, both ends included (00, Conventions). -/
def within (lo hi n : Nat) : Bool := lo ≤ n && n ≤ hi

/-- An address that may be assigned: 0x08 to 0x77 (00, Conventions). -/
def assignable (b : Byte) : Bool := within 0x08 0x77 b.toNat

def checkOf (b : Byte) : Option CheckMode :=
  if b = 0#8 then some .none else if b = 1#8 then some .pec else none

def classOf (b : Byte) : Option Class :=
  if b = 0#8 then some .normal else if b = 1#8 then some .urgent else none

def modeOf (b : Byte) : Option ReportMode :=
  if b = 0#8 then some .notify else if b = 1#8 then some .quiet else if b = 2#8 then some .fire else none

def speedOf (b : Byte) : Option Speed :=
  if b = 0#8 then some .khz100 else if b = 1#8 then some .khz400 else none

def policyOf (b : Byte) : Option Policy :=
  if b = 0#8 then some .onChange else if b = 1#8 then some .every else if b = 2#8 then some .failOnly else none

def attentionOf (b : Byte) : Option Attention :=
  if b = 0#8 then some .off else if b = 1#8 then some .any else if b = 2#8 then some .replies else none

def bankOf (b : Byte) : Option Bank :=
  if b = 0#8 then some .a else if b = 1#8 then some .b else none

/-- A miss threshold: 0 selects the default (01 R5, R6). -/
def thresholdOf (b : Byte) : Nat := if b = 0#8 then Config.defaultThreshold else b.toNat

/-- The handle at the first three bytes, if slot and generation are in range (02 R22, check 1). -/
def handleAt (body : List Byte) : Option Handle :=
  match index 32 (byteAt body 0) with
  | some slot => if (halfAt body 1).toNat < 2048 then some ⟨slot, (halfAt body 1).setWidth 11⟩ else none
  | none => none

/-- A target field of four bytes (10 R180). The last two bytes of a directory target are not read (10 R178). -/
def targetAt (body : List Byte) : Option Target :=
  if byteAt body 0 = 0#8 then (index 64 (byteAt body 1)).map .directory
  else if byteAt body 0 = 1#8 then
    match index 4 (byteAt body 2), checkOf (byteAt body 3) with
    | some s, some c => if (byteAt body 1).toNat < 128 then some (.raw s ((byteAt body 1).setWidth 7) c) else none
    | _, _ => none
  else none

/-! ## Step records (10 R179) -/

/-- A step record as the body carries it. -/
structure RawStep where
  kind : Byte
  flags : Byte
  fields : List Byte
deriving DecidableEq, Repr

/-- The body cut into records: a kind byte, a flag byte, a length byte n, n field bytes. None when a record reaches past the end, or the
remainder is too short for a record's first three bytes (10 R178). Every record takes a byte at least, so the body's length is fuel enough. -/
def splitRecords : Nat → List Byte → Option (List RawStep)
  | _, [] => some []
  | fuel + 1, kind :: flags :: n :: rest =>
    if n.toNat ≤ rest.length then
      (splitRecords fuel (rest.drop n.toNat)).map (⟨kind, flags, rest.take n.toNat⟩ :: ·)
    else none
  | _, _ => none

/-- The records of a run of bytes. -/
def recordsOf (l : List Byte) : Option (List RawStep) := splitRecords l.length l

/-- The step a record holds, if it is well formed (02 R25, R26; 10 R179). -/
def RawStep.step (r : RawStep) : Option Step :=
  let join := r.flags.getLsbD 0
  let tolerate := r.flags.getLsbD 1
  let command := r.flags.getLsbD 2
  let read := r.flags.getLsbD 3
  if r.flags.toNat ≥ 16 then none
  else if r.kind = 0x01#8 then
    if tolerate || command then none
    else if r.fields = [] then some (.quick read join) else none
  else if r.kind = 0x02#8 then
    if read then none
    else
      match command, r.fields with
      | true, c :: bytes => if bytes.length ≤ 32 then some (.write (some c) bytes join tolerate) else none
      | true, [] => none
      | false, bytes => if within 1 32 bytes.length then some (.write none bytes join tolerate) else none
  else if r.kind = 0x03#8 then
    if tolerate || read then none
    else
      match command, r.fields with
      | true, [c, n] => if within 1 32 n.toNat then some (.read (some c) n.toNat join) else none
      | false, [n] => if within 1 32 n.toNat then some (.read none n.toNat join) else none
      | _, _ => none
  else if r.kind = 0x04#8 then
    if tolerate || read then none
    else
      match command, r.fields with
      | true, [c] => some (.readBlock c join)
      | _, _ => none
  else if r.kind = 0x05#8 then
    if join || tolerate || read then none
    else
      match command, r.fields with
      | true, c :: n :: rest =>
        if within 1 4 n.toNat && rest.length == 2 * n.toNat + 2 &&
            within 1 255 (byteAt rest (2 * n.toNat)).toNat && within 1 255 (byteAt rest (2 * n.toNat + 1)).toNat then
          some (.waitUntil c n.toNat (rest.take n.toNat) ((rest.drop n.toNat).take n.toNat)
            (byteAt rest (2 * n.toNat)).toNat (byteAt rest (2 * n.toNat + 1)).toNat)
        else none
      | _, _ => none
  else if r.kind = 0x06#8 then
    if r.flags ≠ 0#8 then none
    else
      match r.fields with
      | [n] => if within 1 255 n.toNat then some (.pause n.toNat) else none
      | _ => none
  else none

/-- The join flag of a step (02 R26). -/
def Step.joined : Step → Bool
  | .quick _ j => j
  | .write _ _ j _ => j
  | .read _ _ j => j
  | .readBlock _ j => j
  | .waitUntil .. => false
  | .pause _ => false

/-- A step that may follow a joined step (02 R26). -/
def Step.mayFollowJoin : Step → Bool
  | .quick .. => true
  | .write .. => true
  | .read .. => true
  | .readBlock .. => true
  | .waitUntil .. => false
  | .pause _ => false

/-- No WAIT_UNTIL or PAUSE follows a joined step (02 R26). -/
def joinsAllowed : List Step → Bool
  | a :: b :: rest => (!a.joined || b.mayFollowJoin) && joinsAllowed (b :: rest)
  | _ => true

/-- The last step of a list carries the join flag (02 R26, R31). -/
def lastJoined (l : List Step) : Bool := (l.getLast?).any Step.joined

/-- The write bytes of a step (02 R27). -/
def Step.writeBytes : Step → Nat
  | .quick .. => 0
  | .write c bytes _ _ => (if c.isSome then 1 else 0) + bytes.length
  | .read c _ _ => if c.isSome then 1 else 0
  | .readBlock .. => 1
  | .waitUntil .. => 1
  | .pause _ => 0

/-- The read bytes of a step (02 R27). -/
def Step.readBytes : Step → Nat
  | .quick .. => 0
  | .write .. => 0
  | .read _ n _ => n
  | .readBlock .. => 32
  | .waitUntil .. => 0
  | .pause _ => 0

/-- A step list within the limits of 02 R27. -/
def withinLimits (l : List Step) : Bool :=
  l.length ≤ Config.maxSteps &&
  (l.map Step.writeBytes).sum ≤ Config.maxWriteBytes &&
  (l.map Step.readBytes).sum ≤ Config.maxReadBytes

/-! ## The header of OPEN_CONVERSATION and RUN_CONVERSATION (10 R181) -/

/-- The header a body carries. -/
structure Header where
  target : Target
  cls : Class
  mode : ReportMode
  deadline : Option Nat
  retry : RetrySettings
deriving DecidableEq, Repr

/-- The length of the fixed part: 9, or 12 with retry settings (10 R178). -/
def headerLength (body : List Byte) : Nat := if flagAt body 8 then 12 else 9

/-- The header, if every field is in range (02 R28, check 1). -/
def headerAt (body : List Byte) : Option Header :=
  let deadline := if halfAt body 6 = 0#16 then none else some (halfAt body 6).toNat
  match targetAt body, classOf (byteAt body 4), modeOf (byteAt body 5) with
  | some t, some c, some m =>
    if flagAt body 8 then
      if (byteAt body 9).toNat ≤ 7 && within 1 255 (byteAt body 10).toNat && (byteAt body 11).toNat ≤ 15 then
        some ⟨t, c, m, deadline, ⟨(byteAt body 9).toNat, (byteAt body 10).toNat, (byteAt body 11).toNat⟩⟩
      else none
    else some ⟨t, c, m, deadline, .default⟩
  | _, _, _ => none

/-! ## Body lengths (10 R178, R181) -/

/-- The body length is one the layout allows for the kind (09 R164, case 3). -/
def lengthAllowed (k : RequestKind) (body : List Byte) : Bool :=
  match k with
  | .ping => body.length == 0
  | .restart => body.length == 0
  | .linkStatus => body.length == 1
  | .setAttention => body.length == 1
  | .setReportMask => body.length == 4
  | .addTarget => body.length == 6
  | .modifyTarget => body.length == 5
  | .withdrawTarget => body.length == 2
  | .readTarget => body.length == 1
  | .listTargets => body.length == 1
  | .configureSegment => body.length == 8
  | .segmentStatus => body.length == 1
  | .holdSegment => body.length == 1
  | .releaseSegment => body.length == 1
  | .resetSegment => body.length == 1
  | .flushSegment => body.length == 1
  | .readFault => body.length == 2
  | .openConversation => body.length == headerLength body
  | .appendSteps => 3 ≤ body.length && (recordsOf (body.drop 3)).isSome
  | .submitConversation => body.length == 3
  | .runConversation => headerLength body ≤ body.length && (recordsOf (body.drop (headerLength body))).isSome
  | .cancelConversation => body.length == 3
  | .conversationStatus => body.length == 3
  | .fetchResult => body.length == 5
  | .setFrame => body.length == 1
  | .startSchedule => body.length == 0
  | .stopSchedule => body.length == 0
  | .putPoll => body.length == 14
  | .clearPoll => body.length == 1
  | .clearShadow => body.length == 0
  | .copyActive => body.length == 0
  | .commitBank => body.length == 0
  | .readPoll => body.length == 2
  | .fetchInbox => body.length == 0
  | .inboxStatus => body.length == 1

end Sys2Proof.Machine
end

