-- ==== Sys2Proof/Machine/Queues.lean ====
section
/-! DEFINITION. The segment queues (03): joining, leaving, readiness and the arbiter's choice. -/

namespace Sys2Proof.Machine

/-- A handle joins the tail of its class's list (03 R45). -/
def Segment.enqueue (c : Class) (h : Handle) (g : Segment) : Segment :=
  match c with
  | .urgent => { g with urgent := g.urgent ++ [h] }
  | .normal => { g with normal := g.normal ++ [h] }

/-- A handle leaves its list from wherever it stands; a removal that empties the NORMAL list sets the streak to 0 (03 R46, R49). -/
def Segment.dequeue (h : Handle) (g : Segment) : Segment :=
  { g with
    urgent := g.urgent.erase h
    normal := g.normal.erase h
    streak := if g.normal.contains h && (g.normal.erase h).isEmpty then 0 else g.streak }

/-- The engine is ready for work: IDLE, HELD clear, the bus free (03 R47). -/
def Segment.ready (g : Segment) : Bool := g.state == .idle && !g.held && g.owner == .free

/-- The conversation the arbiter chooses, with the lists and the streak after it (03 R49, R50). -/
def Segment.choose (g : Segment) : Option (Handle × Segment) :=
  match g.normal, g.urgent with
  | [], [] => none
  | [], u :: us => some (u, { g with urgent := us, streak := 0 })
  | n :: ns, [] => some (n, { g with normal := ns, streak := 0 })
  | n :: ns, u :: us =>
    if g.streak < Config.streakLimit then some (u, { g with urgent := us, streak := g.streak + 1 })
    else some (n, { g with normal := ns, streak := 0 })

/-- The queue has an item to offer: a pending sweep or a conversation (03 R48, 04 R75). -/
def Segment.offers (g : Segment) : Bool := g.sweep == .pending || !g.urgent.isEmpty || !g.normal.isEmpty

end Sys2Proof.Machine
end

