-- ==== Sys2Proof/Machine/Scheduler.lean ====
section
/-! DEFINITION. The Poll Scheduler's own actions (07): taking a result, the bank swap, clearing shadow entries. Due evaluation stands in
Machine/DueEvaluation.lean, after the pool. -/

namespace Sys2Proof.Machine

/-! ## Taking an instance's result (07 R143 to R145) -/

/-- A value under a mask, byte by byte (07 R144, 05 R95). -/
def masked (v mask : List Byte) : List Byte := List.zipWith (· &&& ·) v mask

/-- A successful read changes an ON_CHANGE entry: no last value, or a masked byte differs (07 R144). -/
def changed (e : PollEntry) (value : List Byte) : Bool :=
  match e.lastValue with
  | none => true
  | some old => masked value e.config.mask != masked old e.config.mask

/-- An applied result with outcome OK (07 R144). -/
def applySuccess (bank : Bank) (i : PollId) (e : PollEntry) (value : List Byte) (d : Device) : Device :=
  let d :=
    match e.config.policy with
    | .onChange =>
      if changed e value then
        post (.change bank i e.config.target (d.entry e.config.target).label e.lastValue value) d
      else d
    | .every => post (.sample bank i value) d
    | .failOnly => d
  d.setPoll bank i (some { e with lastValue := some value, failing := false })

/-- A failure of an entry: the first of a run posts POLL_FAILED (07 R145, R141). -/
def applyFailure (bank : Bank) (i : PollId) (e : PollEntry) (o : ConvOutcome) (d : Device) : Device :=
  let d := if e.failing then d else post (.pollFailed bank i o) d
  d.setPoll bank i (some { e with failing := true })

/-- The scheduler takes the result of the instance `h`: it clears the outstanding field that names it, and applies the result
if the origin bank is active; otherwise the result is dropped (07 R143, steps 1 to 3). -/
def takePollResult (bank : Bank) (i : PollId) (h : Handle) (r : ConvResult) (d : Device) : Device :=
  match d.poll bank i with
  | none => d
  | some e =>
    if e.outstanding = some h then
      if d.schedule.active = bank then
        let e := { e with outstanding := none, overrun := 0 }
        if r.outcome = .ok then applySuccess bank i e r.bytes d else applyFailure bank i e r.outcome d
      else d.setPoll bank i (some { e with outstanding := none })
    else d

/-! ## The bank swap (07 R137) -/

/-- Two entries ask the same question: same target, command byte and read length. -/
def sameQuestion (x y : PollConfig) : Bool := x.target == y.target && x.command == y.command && x.length == y.length

/-- An entry with its run-time fields as a write or a copy leaves them (07 R132, R134). -/
def PollEntry.fresh (c : PollConfig) : PollEntry := ⟨c, none, false, 0, false, none⟩

/-- Carry-over at one index: a new active entry takes the last value and the failing flag of the old active entry that asks the same question. -/
def carryOver (old new : Option PollEntry) : Option PollEntry :=
  match new, old with
  | none, _ => none
  | some n, some o =>
    if sameQuestion o.config n.config then
      some { PollEntry.fresh n.config with lastValue := o.lastValue, failing := o.failing }
    else some (.fresh n.config)
  | some n, none => some (.fresh n.config)

/-- The swap: the selector changes, the new active bank is carried over, and BANK_SWAPPED is posted. -/
def swapBanks (d : Device) : Device :=
  let s := d.schedule
  let now := s.shadow
  post (.bankSwapped now)
    { d with schedule := { s with active := now }.updBank now fun v => mapTable (fun i e => carryOver ((s.bank s.active).get i) e) v }

/-- A pending swap is made and the flag cleared (07 R130, R131). -/
def swapIfPending (d : Device) : Device :=
  if d.schedule.swapPending then (swapBanks d).updSchedule fun s => { s with swapPending := false } else d

/-! ## The shadow bank's references (07 R126, R132 to R134) -/

/-- A shadow entry becomes unused and releases its reference. -/
def clearShadowEntry (i : PollId) (d : Device) : Device :=
  match d.poll d.schedule.shadow i with
  | none => d
  | some e => releaseRef e.config.target (d.setPoll d.schedule.shadow i none)

/-- A shadow entry is written: the old target loses a reference and the new one gains one. -/
def writeShadowEntry (i : PollId) (c : PollConfig) (d : Device) : Device :=
  let d := clearShadowEntry i d
  raiseRef c.target (d.setPoll d.schedule.shadow i (some (.fresh c)))

/-- The used entries of a bank that name a target. -/
def bankNames (v : PollBank) (t : TargetId) : Bool :=
  (List.finRange 48).any fun i => (v.get i).any fun e => e.config.target == t

/-- How many entries of a bank are used. -/
def usedCount (v : PollBank) : Nat := (List.finRange 48).countP fun i => (v.get i).isSome

end Sys2Proof.Machine
end

