-- ==== Sys2Proof/Machine/Pool.lean ====
section
/-! DEFINITION. The Conversation Pool's shared actions (02): creating, queueing and ending a conversation, and setting a stop request. -/

namespace Sys2Proof.Machine

/-- A conversation is placed in a FREE slot (02 R23, R28, R32, R33). -/
def placeConversation (i : SlotId) (st : SlotState) (c : Conv) (d : Device) : Device :=
  raiseTarget c.target (d.updSlot i fun s => { s with state := st, conv := c })

/-- A conversation is queued: its deadline timer starts, its handle joins its segment's list, its slot becomes QUEUED
(02 R31, R32, R33; 03 R45). -/
def queueConversation (i : SlotId) (d : Device) : Device :=
  let c := (d.slot i).conv
  let d := d.updSlot i fun s =>
    { s with state := .queued, conv := { s.conv with assemblyTimer := none, deadlineTimer := s.conv.deadline } }
  d.updSeg (targetSegment d c.target) (·.enqueue c.cls (d.handle i))

/-- A QUEUED conversation's handle leaves its segment's queue (03 R46). -/
def leaveQueue (i : SlotId) (d : Device) : Device :=
  d.updSeg (targetSegment d (d.slot i).conv.target) (·.dequeue (d.handle i))

/-- The result of a conversation that ended before it started (02 R37). -/
def ConvResult.unstarted (o : ConvOutcome) : ConvResult := ⟨o, 0, some 0, [], none⟩

/-- A conversation enters DONE (02 R37): the result is fixed, the timers stop, the stop request is cleared; the reference is released;
then the report mode or the origin acts (02 R38 to R40). -/
def finish (i : SlotId) (r : ConvResult) (d : Device) : Device :=
  let c := (d.slot i).conv
  let h := d.handle i
  let d := d.updSlot i fun s =>
    { s with
      state := .done
      conv := { s.conv with result := some r, stop := none, assemblyTimer := none, deadlineTimer := none } }
  let d := releaseTarget c.target d
  match c.origin, c.mode with
  | .host, some .notify => post (.completed h r.outcome r.completed (r.bytes.take 32) (decide (r.bytes.length > 32))) d
  | .host, some .fire =>
    let d := freeSlot i d
    if r.outcome = .ok then d else post (.failed h r.outcome (r.failing.getD 0)) d
  | .host, _ => d
  | .poll bank k, _ => freeSlot i (takePollResult bank k h r d)

/-- A QUEUED conversation ends where it waits (03 R46). -/
def endQueued (i : SlotId) (o : ConvOutcome) (d : Device) : Device := finish i (.unstarted o) (leaveQueue i d)

/-- A stop request is set on a RUNNING conversation; the cause set first is kept (02 R35). -/
def setStop (i : SlotId) (c : StopCause) (d : Device) : Device :=
  d.updSlot i fun s => { s with conv := { s.conv with stop := s.conv.stop.or (some c) } }

end Sys2Proof.Machine
end

