-- ==== Sys2Proof/Machine/Reception.lean ====
section
/-! DEFINITION. The target receivers and the Alert Inbox (06, sections 6.1 and 6.2). -/

namespace Sys2Proof.Machine

/-- Free inbox places: 16 minus stored minus reserved (06 R107, R111). -/
def Inbox.freePlaces (x : Inbox) : Nat := Config.inboxPlaces - (x.entries.length + x.reserved)

/-- The receiver is active: enabled with a nonzero own address, in IDLE or ACTIVE (06 R105). -/
def Segment.receiverActive (g : Segment) : Bool := (g.state == .idle || g.state == .active) && g.config.ownAddress != 0#7

/-- An entry identical to a message in segment, kind and bytes (06 R114). -/
def InboxEntry.sameMessage (seg : SegId) (kind : InboxKind) (bytes : List Byte) (e : InboxEntry) : Bool :=
  e.segment == seg && e.kind == kind && e.bytes == bytes

/-- A repeat of a stored message: the count rises, a set truncated flag stays or is set (06 R114). -/
def InboxEntry.again (truncated : Bool) (e : InboxEntry) : InboxEntry :=
  { e with repeats := satInc255 e.repeats, truncated := e.truncated || truncated }

/-- The inbox stores a message: it coalesces it into an identical entry, or appends a new entry and posts INBOX.
The reservation is used up either way (06 R114). -/
def storeMessage (seg : SegId) (kind : InboxKind) (bytes : List Byte) (truncated : Bool) (d : Device) : Device :=
  if d.inbox.entries.any (·.sameMessage seg kind bytes) then
    d.updInbox fun x =>
      { x with
        entries := x.entries.map fun e => if e.sameMessage seg kind bytes then e.again truncated else e
        reserved := x.reserved - 1 }
  else
    post (.inbox seg kind bytes.length)
      (d.updInbox fun x => { x with entries := x.entries ++ [⟨seg, kind, bytes, truncated, 1⟩], reserved := x.reserved - 1 })

/-- A reservation is released (06 R109, R110). -/
def releasePlace (d : Device) : Device := d.updInbox fun x => { x with reserved := x.reserved - 1 }

/-- The record becomes NONE and the receiver drives nothing. -/
def closeRecord (seg : SegId) (d : Device) : Device :=
  d.updSeg seg fun g => { g with reception := .nothing, ackDriven := false }

/-- A reception ends at a STOP or a repeated START (06 R109). -/
def endReception (seg : SegId) (d : Device) : Device :=
  match (d.seg seg).reception with
  | .write kind bytes truncated =>
    closeRecord seg (if bytes.isEmpty then releasePlace d else storeMessage seg kind bytes truncated d)
  | .directRead _ => closeRecord seg d
  | .passive => closeRecord seg d
  | .nothing => d

/-- A reception is cut: it stores nothing and releases its reservation (06 R110). -/
def cutReception (seg : SegId) (d : Device) : Device :=
  match (d.seg seg).reception with
  | .write .. => closeRecord seg (releasePlace d)
  | .directRead _ => closeRecord seg d
  | .passive => closeRecord seg d
  | .nothing => d

/-- The receiver takes part in a write if a place is free, and otherwise refuses (06 R107). -/
def requestPlace (seg : SegId) (kind : InboxKind) (d : Device) : Device :=
  if d.inbox.freePlaces = 0 then
    (d.updInbox fun x => { x with refusals := satInc x.refusals }).updSeg seg fun g =>
      { g with reception := .passive, ackDriven := false }
  else
    (d.updInbox fun x => { x with reserved := x.reserved + 1 }).updSeg seg fun g =>
      { g with reception := .write kind [] false, ackDriven := true }

/-- The receiver judges an address byte (06 R106): own address or broadcast, write or read, or any other. -/
def judgeAddress (seg : SegId) (b : Byte) (d : Device) : Device :=
  let g := d.seg seg
  let address : Addr := (b >>> 1).setWidth 7
  let read := b.getLsbD 0
  if address = g.config.ownAddress then
    if read then
      let free := d.inbox.freePlaces
      d.updSeg seg fun g => { g with reception := .directRead free, ackDriven := true }
    else requestPlace seg .direct d
  else if address = 0#7 ∧ read = false ∧ g.config.broadcast then requestPlace seg .broadcast d
  else closeRecord seg d

/-- The receiver takes a data byte in a write role (06 R108). -/
def takeDataByte (seg : SegId) (b : Byte) (d : Device) : Device :=
  match (d.seg seg).reception with
  | .write kind bytes truncated =>
    if bytes.length < Config.maxMessage ∧ truncated = false then
      d.updSeg seg fun g => { g with reception := .write kind (bytes ++ [b]) truncated, ackDriven := true }
    else d.updSeg seg fun g => { g with reception := .write kind bytes true, ackDriven := false }
  | .directRead _ => d
  | .passive => d
  | .nothing => d

end Sys2Proof.Machine
end

