-- ==== Sys2Proof/Machine/Transactions.lean ====
section
/-! DEFINITION. What one master transaction puts on the wire and how it is judged (04, sections 4.4 to 4.6): the bytes of each step
kind's transactions, the check span, and the outcome the target's answers give. -/

namespace Sys2Proof.Machine

/-- An address byte on the wire: the 7-bit address followed by the direction bit, 1 for read (00, Conventions). -/
def addressByte (a : Addr) (read : Bool) : Byte := (a.setWidth 8 <<< 1) ||| (if read then 1#8 else 0#8)

/-- The bytes a transaction expects to receive: none, a number known in advance, or a counted block (04 R66). -/
inductive Expect
  | nothing
  | bytes (n : Nat)
  | block
deriving DecidableEq, Repr

/-- One transaction: its direction, the bytes the engine writes after the address byte, what it expects to read, whether a check
byte ends it, and the bytes of its check span that a write half before it sent (04 R67, R69). -/
structure Txn where
  reads : Bool
  writes : List Byte
  expect : Expect
  check : Bool
  spanBefore : List Byte
deriving DecidableEq, Repr

/-- The step is carried out as a write half and a read half (04 R67). -/
def Step.twoHalves : Step → Bool
  | .quick .. => false
  | .write .. => false
  | .read c _ _ => c.isSome
  | .readBlock .. => true
  | .waitUntil .. => true
  | .pause _ => false

/-- The write half of a step with a command byte: the command alone, with no check byte of its own (04 R67). -/
def writeHalf (c : Byte) : Txn := ⟨false, [c], .nothing, false, []⟩

/-- The read half after a repeated START; its span begins with the write half's bytes (04 R69). -/
def readHalfTxn (a : Addr) (c : Byte) (e : Expect) (pec : Bool) : Txn := ⟨true, [], e, pec, [addressByte a false, c]⟩

/-- The transaction a step carries out in its given half (04 R67). A PAUSE has none; it is given an empty one that nothing uses. -/
def txnOf (a : Addr) (readHalf pec : Bool) : Step → Txn
  | .quick r _ => ⟨r, [], .nothing, false, []⟩
  | .write c bytes _ _ => ⟨false, c.toList ++ bytes, .nothing, pec, []⟩
  | .read none n _ => ⟨true, [], .bytes n, pec, []⟩
  | .read (some c) n _ => if readHalf then readHalfTxn a c (.bytes n) pec else writeHalf c
  | .readBlock c _ => if readHalf then readHalfTxn a c .block pec else writeHalf c
  | .waitUntil c n _ _ _ _ => if readHalf then readHalfTxn a c (.bytes n) pec else writeHalf c
  | .pause _ => ⟨false, [], .nothing, false, []⟩

/-- The alert sweep's transaction: one byte read, no check (06 R119). -/
def sweepTxn : Txn := ⟨true, [], .bytes 1, false, []⟩

/-- How many bytes the engine itself sends: the address byte, the written bytes, and the check byte of a write (04 R72). -/
def Txn.sent (t : Txn) : Nat := 1 + t.writes.length + (if t.check && !t.reads then 1 else 0)

/-- The bytes the engine drives after the START or repeated START: the address byte, the written bytes, and the check byte of a write
(04 R65, R67, R69). -/
def Txn.wire (a : Addr) (t : Txn) : List Byte :=
  let l := addressByte a t.reads :: t.writes
  if t.check && !t.reads then l ++ [crc8 (t.spanBefore ++ l)] else l

/-- The highest byte index a data byte can have (04 R64). -/
def Txn.lastData (t : Txn) : Nat :=
  match t.expect with
  | .nothing => t.writes.length
  | .bytes n => n
  | .block => 33

/-- A position the transaction can be in on the wire (04 R64). -/
def Txn.canBeAt (t : Txn) : BusPos → Bool
  | .waitFree => false
  | .start => true
  | .address => true
  | .data i => 1 ≤ i && i ≤ t.lastData
  | .checkByte i =>
    t.check &&
    match t.expect with
    | .block => 3 ≤ i && i ≤ 34
    | _ => i == t.lastData + 1
  | .stop i acked => (acked || i == 0) && i ≤ t.lastData + (if t.check then 1 else 0)

/-- The acknowledge bit of the address byte, if it had been sampled at this position (01 R9). -/
def posSampled : BusPos → Option Bool
  | .waitFree => none
  | .start => none
  | .address => none
  | .data _ => some true
  | .checkByte _ => some true
  | .stop _ acked => some acked

/-- The byte index the fault record takes at this position (04 R82): absent before the address byte. -/
def posByteIndex : BusPos → Option Nat
  | .waitFree => none
  | .start => none
  | .address => some 0
  | .data i => some i
  | .checkByte i => some i
  | .stop i _ => some i

/-- Transaction outcomes (04 R71). -/
inductive TxnOutcome
  | ok | nakAddress | nakData | pecMismatch | badCount | arbLost | stallTimeout | busFault
deriving DecidableEq, Repr

/-- Bytes received, up to `n`: a byte that nobody drives reads 0xFF, since the lines are open-drain with pull-ups (00, Pins; log 8). -/
def receivedBytes (n : Nat) (l : List Byte) : List Byte := (l ++ List.replicate n 0xFF#8).take n

/-- The byte received at a place. -/
def receivedAt (i : Nat) (l : List Byte) : Byte := l.getD i 0xFF#8

/-- How many bytes the engine reads, the check byte among them; a count out of range is the last byte (04 R66). -/
def Txn.readsBytes (t : Txn) (received : List Byte) : Nat :=
  let check := if t.check then 1 else 0
  match t.expect with
  | .nothing => 0
  | .bytes n => n + check
  | .block =>
    let n := (receivedAt 0 received).toNat
    if n = 0 ∨ 32 < n then 1 else 1 + n + check

/-- The ninth bit that the engine drives after the `i`-th byte read, counted from 0: ACK after every byte but the last (04 R66). -/
def Txn.acks (t : Txn) (received : List Byte) (i : Nat) : Bool := i + 1 < t.readsBytes received

/-- A read of data bytes ends OK, or PEC_MISMATCH when the check byte differs; then no data is passed on (04 R70). -/
def judgeRead (check : Bool) (span bytes : List Byte) (checkByte : Byte) : TxnOutcome × List Byte :=
  if check && checkByte != crc8 (span ++ bytes) then (.pecMismatch, []) else (.ok, bytes)

/-- The outcome of a transaction to address `a`, and the data bytes it passes on (04 R65, R66, R70, R71). `nakAt` is the byte index of
the byte that the target left unacknowledged, if any; `received` are the bytes the target sent. A `nakAt` that names a byte whose ninth
bit is not the target's (a byte read, or one past the last byte written) is read as no NAK: the model's choice, log 31. -/
def Txn.judge (t : Txn) (a : Addr) (nakAt : Option Nat) (received : List Byte) : TxnOutcome × List Byte :=
  if nakAt = some 0 then (.nakAddress, [])
  else if t.reads then
    match t.expect with
    | .nothing => (.ok, [])
    | .bytes n =>
      judgeRead t.check (t.spanBefore ++ [addressByte a true]) (receivedBytes n received) (receivedAt n received)
    | .block =>
      let count := receivedAt 0 received
      let n := count.toNat
      if n = 0 ∨ 32 < n then (.badCount, [])
      else
        judgeRead t.check (t.spanBefore ++ [addressByte a true, count]) (receivedBytes n (received.drop 1))
          (receivedAt (n + 1) received)
  else
    match nakAt with
    | none => (.ok, [])
    | some k =>
      if k ≤ t.writes.length then (.nakData, [])
      else if t.check && k == t.writes.length + 1 then (.pecMismatch, [])
      else (.ok, [])

end Sys2Proof.Machine
end

