-- ==== Sys2Proof/Machine/Engine.lean ====
section
/-! DEFINITION. The segment engine (04, 05) and the alert sweep (06, section 6.3): units, steps, retries, ends, faults, recovery. -/

namespace Sys2Proof.Machine

/-- The conversation record a handle's slot holds. -/
def Device.conv (d : Device) (h : Handle) : Conv := (d.slot h.slot).conv

/-- The engine's work is this conversation with this context. -/
def setContext (seg : SegId) (h : Handle) (ctx : Context) (d : Device) : Device :=
  d.updSeg seg fun g => { g with work := .conversation h ctx }

/-- The engine's transaction of a conversation begins or waits to begin; the check mode is read now (01 R7). -/
def setTransaction (seg : SegId) (h : Handle) (ctx : Context) (readHalf : Bool) (pos : BusPos) (d : Device) : Device :=
  setContext seg h { ctx with phase := .transaction readHalf (targetPec d (d.conv h).target) pos } d

/-! ## Ending (05 R98) -/

/-- The conversation ends: the result is built from the context and handed to the pool; the context is discarded; the segment is IDLE
(the callers of faults and resets then put it into RECOVERING). -/
def endConversation (seg : SegId) (h : Handle) (ctx : Context) (o : ConvOutcome) (failing : Option Nat) (d : Device) : Device :=
  (finish h.slot ⟨o, ctx.completed, failing, ctx.readData, ctx.lastValue⟩ d).updSeg seg fun g =>
    { g with work := .nothing, state := .idle }

/-- The conversation ends with a stop cause: the failing step index is `completed` (05 R98). -/
def endStopped (seg : SegId) (h : Handle) (ctx : Context) (c : StopCause) (d : Device) : Device :=
  endConversation seg h ctx c.outcome (some ctx.completed) d

/-- The conversation ends with a step's final outcome: the failing step is the current one (05 R98). -/
def endFailed (seg : SegId) (h : Handle) (ctx : Context) (o : ConvOutcome) (d : Device) : Device :=
  endConversation seg h ctx o (some ctx.current) d

/-! ## Beginning units and steps (05 R84, R85, R87) -/

/-- A unit or its repeat is to begin in WAIT_FREE: a pending stop request is taken (05 R99, R101); otherwise the transaction starts at
once if the bus is free, and waits if it is not (04 R64). -/
def enterWaitFree (seg : SegId) (h : Handle) (ctx : Context) (d : Device) : Device :=
  match (d.conv h).stop with
  | some c => endStopped seg h ctx c d
  | none => setTransaction seg h ctx false (if (d.seg seg).owner = .free then .start else .waitFree) d

/-- A unit begins: unit start and retry count are set, and the length its read data can be rolled back to is kept (05 R85, R92). -/
def Context.beginUnit (ctx : Context) : Context :=
  { ctx with unitStart := ctx.current, retryCount := 0, unitData := ctx.readData.length }

/-- The current step begins after a unit end, a PAUSE or the start: no step left ends the conversation OK; a stop request that is pending
ends it; a PAUSE waits; any other step begins a unit (05 R87, R97, R99, R100). -/
def enterStep (seg : SegId) (h : Handle) (ctx : Context) (d : Device) : Device :=
  match (d.conv h).steps[ctx.current]? with
  | none => endConversation seg h ctx .ok none d
  | some (.pause n) =>
    match (d.conv h).stop with
    | some c => endStopped seg h ctx c d
    | none => setContext seg h { ctx with phase := .pause n } d
  | some _ => enterWaitFree seg h ctx.beginUnit d

/-- A step is completed: its data joins the read data, the count rises, the next step is current (05 R87). -/
def Context.complete (ctx : Context) (bytes : List Byte) : Context :=
  { ctx with
    readData := ctx.readData ++ bytes
    stepData := []
    completed := ctx.completed + 1
    current := ctx.current + 1
    attempt := 0 }

/-- The unit is rolled back to its start: the completed steps of its group and their read data are lost (05 R92). -/
def Context.rollback (ctx : Context) : Context :=
  { ctx with
    completed := ctx.unitStart
    current := ctx.unitStart
    readData := ctx.readData.take ctx.unitData
    stepData := [] }

/-- The context a conversation starts with (05 R84). -/
def Context.initial : Context := ⟨0, 0, .transaction false false .waitFree, 0, 0, 0, 0, [], [], none, 0⟩

/-! ## After a transaction (05 R86 to R97, R100) -/

/-- The transaction of a step ended in the success class (05 R87, R95). A joined step hands the bus on by repeated START (04 R68). -/
def afterSuccess (seg : SegId) (h : Handle) (ctx : Context) (readHalf : Bool) (step : Step) (bytes : List Byte) (d : Device) : Device :=
  if step.twoHalves && !readHalf then
    (setTransaction seg h ctx true .start d).updSeg seg fun g => { g with freeCount := false }
  else
    match step with
    | .waitUntil _ _ mask want interval limit =>
      let ctx := { ctx with attempt := ctx.attempt + 1, lastValue := some bytes, stepData := [] }
      if masked bytes mask = masked want mask then enterStep seg h (ctx.complete []) d
      else if limit ≤ ctx.attempt then endFailed seg h ctx .conditionTimeout d
      else
        match (d.conv h).stop with
        | some c => endStopped seg h ctx c d
        | none => setContext seg h { ctx with phase := .interval interval } d
    | _ =>
      let ctx := ctx.complete bytes
      if step.joined && decide (ctx.current < (d.conv h).steps.length) then
        (setTransaction seg h ctx false .start d).updSeg seg fun g => { g with freeCount := false }
      else enterStep seg h ctx d

/-- A NAK_ADDRESS or PEC_MISMATCH: a retry after the retry gap, or the final outcome (05 R88, R100). -/
def afterRetryable (seg : SegId) (h : Handle) (ctx : Context) (o : ConvOutcome) (d : Device) : Device :=
  let c := d.conv h
  if c.stop = none ∧ ctx.retryCount < c.retry.retries then
    setContext seg h { ctx.rollback with retryCount := ctx.retryCount + 1, phase := .retryGap c.retry.gap } d
  else endFailed seg h { ctx with stepData := [] } o d

/-- An arbitration loss: the stop cause, a repeat from WAIT_FREE, or ARB_EXHAUSTED (05 R90, R91, R100). -/
def afterArbLost (seg : SegId) (h : Handle) (ctx : Context) (d : Device) : Device :=
  let c := d.conv h
  match c.stop with
  | some cause => endStopped seg h { ctx with stepData := [] } cause d
  | none =>
    if ctx.losses < c.retry.budget then
      setTransaction seg h { ctx.rollback with losses := ctx.losses + 1 } false .waitFree d
    else endFailed seg h { ctx with stepData := [] } .arbExhausted d

/-- A WRITE that tolerates data NAK (05 R93). -/
def Step.tolerates : Step → Bool
  | .write _ _ _ t => t
  | .quick .. => false
  | .read .. => false
  | .readBlock .. => false
  | .waitUntil .. => false
  | .pause _ => false

/-- The classification of an outcome that the target's answers gave (05 R86). -/
def classify (seg : SegId) (h : Handle) (ctx : Context) (readHalf : Bool) (step : Step) (o : TxnOutcome) (bytes : List Byte)
    (d : Device) : Device :=
  match o with
  | .ok => afterSuccess seg h ctx readHalf step bytes d
  | .nakData =>
    if step.tolerates then afterSuccess seg h ctx readHalf step [] d else endFailed seg h { ctx with stepData := [] } .nakData d
  | .nakAddress => afterRetryable seg h ctx .nakAddress d
  | .pecMismatch => afterRetryable seg h ctx .pecMismatch d
  | .badCount => endFailed seg h { ctx with stepData := [] } .badCount d
  | .arbLost => afterArbLost seg h ctx d
  | .stallTimeout => endFailed seg h { ctx with stepData := [] } .stallTimeout d
  | .busFault => endFailed seg h { ctx with stepData := [] } .busFault d

/-- A STOP of the engine's own stands on the lines: the bus is taken and the free-time count runs (04 R63, R68, R77; logs 9 and 19). -/
def placeStop (seg : SegId) (d : Device) : Device := d.updSeg seg fun g => { g with owner := .taken, freeCount := true }

/-! ## Alert sweeps (06 R117 to R122) -/

/-- ALR falls, or is low when the spec takes that as a fall (06 R118): IDLE with sweep enable arms a sweep. -/
def Segment.alrFell (g : Segment) : Segment :=
  if g.sweep = .idle ∧ g.config.sweepEnable then { g with sweep := .pending } else g

/-- The sweep state becomes IDLE with count 0; a holdoff stops (06 R117). -/
def Segment.disarm (g : Segment) : Segment := { g with sweep := .idle, emptySweeps := 0 }

/-- PENDING if ALR is low and sweep enable is set, IDLE otherwise (06 R120, R122). -/
def Segment.rearm (g : Segment) : Segment :=
  if g.alrLow ∧ g.config.sweepEnable then { g with sweep := .pending } else g.disarm

/-- The entry that is not VACANT and holds a segment and an address (01 R13); at most one does (01 R3). -/
def lookup (seg : SegId) (a : Addr) (d : Device) : Option TargetId :=
  (List.finRange 64).find? fun i =>
    (d.entry i).presence ≠ .vacant ∧ (d.entry i).segment = seg ∧ (d.entry i).address = a

/-- The sweep found a responder (06 R120; 01 R13). -/
def sweepResponder (seg : SegId) (a : Addr) (d : Device) : Device :=
  let d :=
    match lookup seg a d with
    | some i => ackEvent i (post (.alert seg i (d.entry i).label a) d)
    | none => post (.alertUnknown seg a) d
  d.updSeg seg fun g => { g with emptySweeps := 0 }.rearm

/-- The sweep is empty (06 R121). -/
def sweepEmpty (seg : SegId) (d : Device) : Device :=
  let g := d.seg seg
  let n := g.emptySweeps + 1
  if g.alrLow = false then d.updSeg seg Segment.disarm
  else if n < Config.stuckLimit then d.updSeg seg fun g => { g with sweep := .holdoff, emptySweeps := n }
  else post (.alertStuck seg) (d.updSeg seg fun g => { g with sweep := .stuck, emptySweeps := Config.stuckLimit })

/-- The sweep's work is over and the engine is IDLE. -/
def endSweep (seg : SegId) (d : Device) : Device := d.updSeg seg fun g => { g with work := .nothing, state := .idle }

/-- A sweep's transaction ends with the target's answers (06 R119 to R121). -/
def sweepEnds (seg : SegId) (nakAt : Option Nat) (received : List Byte) (d : Device) : Device :=
  match sweepTxn.judge (d.seg seg).config.sweepAddress nakAt received with
  | (.ok, b :: _) => endSweep seg (sweepResponder seg ((b >>> 1).setWidth 7) d)
  | _ => endSweep seg (sweepEmpty seg d)

/-! ## Faults and recovery (04 R74 to R78, R82) -/

/-- A fault is entered: an empty record takes it; a full one counts it (04 R82). -/
def enterFault (seg : SegId) (kind : FaultKind) (running : Option (Handle × Nat)) (byteIndex : Option Nat) (d : Device) : Device :=
  d.updSeg seg fun g =>
    { g with
      fault :=
        match g.fault with
        | none => some ⟨kind, running, byteIndex, 0⟩
        | some f => some { f with further := satInc255 f.further } }

/-- The segment enters RECOVERING: a reception is cut, the sequence starts with a pulse count of 0 (04 R76, R77, R78). -/
def enterRecovering (seg : SegId) (fromBlocked : Bool) (d : Device) : Device :=
  (cutReception seg d).updSeg seg fun g => { g with state := .recovering, fromBlocked := fromBlocked, pulses := 0 }

/-- The conversation outcome of a fault of the engine's transaction. -/
def FaultKind.outcome : FaultKind → ConvOutcome
  | .stallTimeout => .stallTimeout
  | .busFault => .busFault
  | .recoveryFailed => .busFault

/-- The engine's own START stands before this position of its transaction. -/
def posPastStart : BusPos → Bool
  | .waitFree => false
  | .start => false
  | .address => true
  | .data _ => true
  | .checkByte _ => true
  | .stop .. => true

/-- A position past START says that the engine's own START has been seen: the bus is taken and no count runs (04 R63; log 32). -/
def ownStart (seg : SegId) (pos : BusPos) (d : Device) : Device :=
  if posPastStart pos then d.updSeg seg fun g => { g with owner := .taken, freeCount := false } else d

/-- A stall or a bus fault ends the engine's work at a position on the wire (04 R74, R75; 06 R122): the address event if its bit was
sampled, the fault record, the end of the conversation or sweep, RECOVERING with the flag clear. A position past START implies the
engine's own START (log 32). -/
def wireFault (seg : SegId) (kind : FaultKind) (pos : BusPos) (d : Device) : Device :=
  match (d.seg seg).work with
  | .nothing => d
  | .conversation h ctx =>
    let d := addressEvent (d.conv h).target (posSampled pos) (ownStart seg pos d)
    let d := enterFault seg kind (some (h, ctx.current)) (posByteIndex pos) d
    enterRecovering seg false (endFailed seg h { ctx with stepData := [] } kind.outcome d)
  | .sweep _ =>
    let d := enterFault seg kind none (posByteIndex pos) (ownStart seg pos d)
    enterRecovering seg false (endSweep seg (d.updSeg seg Segment.rearm))

/-- The line watch of 04 R75 runs: the engine is in WAIT_FREE, or IDLE with HELD clear, an item to offer and the bus taken. -/
def Segment.lineWatch (g : Segment) : Bool :=
  g.work.pos == some .waitFree || (g.state == .idle && !g.held && g.offers && g.owner == .taken)

/-- The line watch fires (04 R75). -/
def lineWatchFires (seg : SegId) (d : Device) : Device :=
  match (d.seg seg).work with
  | .nothing => enterRecovering seg false (enterFault seg .busFault none none d)
  | _ => wireFault seg .busFault .waitFree d

/-- The transaction the engine has on the wire. -/
def Device.txn (d : Device) (seg : SegId) : Option Txn :=
  match (d.seg seg).work with
  | .nothing => none
  | .sweep .waitFree => none
  | .sweep _ => some sweepTxn
  | .conversation h ctx =>
    match ctx.phase, (d.conv h).steps[ctx.current]? with
    | .transaction _ _ .waitFree, _ => none
    | .transaction readHalf pec _, some step => some (txnOf (targetAddress d (d.conv h).target) readHalf pec step)
    | _, _ => none

/-- The engine's transaction can be at this position on the wire now. -/
def Device.canBeAt (d : Device) (seg : SegId) (pos : BusPos) : Bool := (d.txn seg).any (·.canBeAt pos)

/-- A position on the wire moves to where a note says (log 7). -/
def Work.moveTo (pos : BusPos) (received : List Byte) : Work → Work
  | .nothing => .nothing
  | .sweep _ => .sweep pos
  | .conversation h ctx =>
    match ctx.phase with
    | .transaction readHalf pec _ =>
      .conversation h { ctx with phase := .transaction readHalf pec pos, stepData := received.take 32 }
    | _ => .conversation h ctx

/-- A note of how far a transaction has come is taken if the transaction can be there; otherwise nothing is known anew (log 7). A
position past START implies the engine's own START (log 32). -/
def takeNote (note : Option WireNote) (d : Device) : Device :=
  match note with
  | none => d
  | some n => if d.canBeAt n.seg n.pos then (ownStart n.seg n.pos d).updSeg n.seg fun g => { g with work := g.work.moveTo n.pos n.received } else d

/-! ## Selection (03 R47 to R50) -/

/-- A ready engine with no pending sweep starts the conversation the arbiter chooses (03 R47 to R50, 05 R84). -/
def startConversation (seg : SegId) (d : Device) : Device :=
  let g := d.seg seg
  if g.ready && g.sweep != .pending then
    match g.choose with
    | none => d
    | some (h, left) =>
      let d := d.updSeg seg fun _ => { left with state := .active }
      enterStep seg h .initial (d.updSlot h.slot fun s => { s with state := .running })
  else d

/-- A ready engine starts a pending sweep, ahead of every queued conversation (03 R48, 06 R119). -/
def startSweep (seg : SegId) (d : Device) : Device :=
  let g := d.seg seg
  if g.ready && g.sweep == .pending then
    d.updSeg seg fun g => { g with state := .active, sweep := .running, work := .sweep .start }
  else d

/-- An event of R47: if the engine is without work and ready, the arbiter's choice starts, a pending sweep ahead of every conversation
(03 R47, R48). -/
def makeSelection (seg : SegId) (d : Device) : Device :=
  match (d.seg seg).work with
  | .nothing => if (d.seg seg).sweep = .pending then startSweep seg d else startConversation seg d
  | .conversation .. => d
  | .sweep _ => d

/-- A change of a segment that may leave a sweep newly pending, which is an event of R47 (06 R118, R121). -/
def mayArm (seg : SegId) (f : Segment → Segment) (d : Device) : Device :=
  let after := d.updSeg seg f
  if (d.seg seg).sweep ≠ .pending ∧ (after.seg seg).sweep = .pending then makeSelection seg after else after

/-- A selection on a segment whose lists have gained a handle since an earlier device (03 R47). -/
def selectIfJoined (before : Device) (d : Device) (seg : SegId) : Device :=
  if (d.seg seg).urgent = (before.seg seg).urgent ∧ (d.seg seg).normal = (before.seg seg).normal then d else makeSelection seg d

/-- The selections that the joins of a due evaluation lead to, when its action is over (03 R45, R47; 07 R129, R130; log 35). -/
def selectAfterJoins (before d : Device) : Device := (List.finRange 4).foldl (selectIfJoined before) d

/-! ## Stop requests during a wait (05 R99, R101) -/

/-- The engine waits: a timed wait, or WAIT_FREE (05 R99). -/
def Phase.waits : Phase → Bool
  | .transaction _ _ .waitFree => true
  | .transaction .. => false
  | .retryGap _ => true
  | .interval _ => true
  | .pause _ => true

/-- A stop request that stands on a waiting conversation is taken at once (05 R101); the engine's return to IDLE makes a selection
(03 R47). -/
def takeStopInWait (i : SlotId) (d : Device) : Device :=
  let seg := targetSegment d (d.slot i).conv.target
  match (d.seg seg).work, (d.slot i).conv.stop with
  | .conversation h ctx, some c => if h.slot = i ∧ ctx.phase.waits then makeSelection seg (endStopped seg h ctx c d) else d
  | _, _ => d

/-- The bus has become free: an engine in WAIT_FREE starts its transaction, reading the check mode now (04 R64, R73; 01 R7; 05 R90). -/
def startWaiting (seg : SegId) (d : Device) : Device :=
  match (d.seg seg).work with
  | .conversation h ctx =>
    match ctx.phase with
    | .transaction readHalf _ .waitFree => setTransaction seg h ctx readHalf .start d
    | _ => d
  | .sweep .waitFree => d.updSeg seg fun g => { g with work := .sweep .start }
  | _ => d

/-! ## The recovery sequence (04 R77) -/

/-- The pulses of a recovery: how many have been issued, and whether the sequence goes on to the STOP. None while more is to be read. -/
def recoveryPulses : Nat → List PulseRead → Option (Nat × Bool)
  | issued, .sdaHigh :: _ => some (issued + 1, true)
  | issued, .sclStuck :: _ => some (issued + 1, false)
  | issued, .sdaLow :: rest => if issued + 1 = Config.maxPulses then some (issued + 1, false) else recoveryPulses (issued + 1) rest
  | _, [] => none

/-- The end of a recovery sequence from what the engine reads: the pulses issued, and success or failure. None if it has not ended. -/
def recoveryEnds (l : RecoveryLines) : Option (Nat × Bool) :=
  let stop := decide (l.stop = .linesHigh)
  if l.sdaHighAtOnce then some (0, stop)
  else
    match recoveryPulses 0 l.pulses with
    | some (n, true) => some (n, stop)
    | some (n, false) => some (n, false)
    | none => none

end Sys2Proof.Machine
end

