-- ==== Sys2Proof/Machine/DirectoryRequests.lean ====
section
/-! DEFINITION. The requests of the Target Directory (01 R5, R6, R15 to R20). -/

namespace Sys2Proof.Machine

/-- A check mode and a miss threshold in range (01 R5, R6). -/
def entryFields (check threshold : Byte) : Option (CheckMode × Nat) :=
  match checkOf check with
  | some c => if threshold.toNat ≤ 15 then some (c, thresholdOf threshold) else none
  | none => none

/-- The lowest-numbered VACANT entry (01 R5). -/
def lowestVacant (d : Device) : Option TargetId := (List.finRange 64).find? fun i => (d.entry i).presence = .vacant

/-- ADD_TARGET (01 R5). -/
def requestAddTarget (body : List Byte) (d : Device) : Reply × Device :=
  match index 4 (byteAt body 0), entryFields (byteAt body 2) (byteAt body 5) with
  | some seg, some (check, threshold) =>
    if assignable (byteAt body 1) then
      let a : Addr := (byteAt body 1).setWidth 7
      if (d.seg seg).config.ownAddress = a then (refuse .addressIsOwn, d)
      else if (lookup seg a d).isSome then (refuse .duplicate, d)
      else
        match lowestVacant d with
        | none => (refuse .directoryFull, d)
        | some i =>
          (⟨.ok, [byte i.val]⟩, d.updEntry i fun _ => ⟨.unconfirmed, seg, a, check, halfAt body 3, threshold, 0, 0⟩)
    else (refuse .badField, d)
  | _, _ => (refuse .badField, d)

/-- MODIFY_TARGET (01 R6). -/
def requestModifyTarget (body : List Byte) (d : Device) : Reply × Device :=
  match index 64 (byteAt body 0) with
  | none => (refuse .badField, d)
  | some i =>
    if (d.entry i).presence = .vacant then (refuse .unknownTarget, d)
    else if (d.entry i).presence = .withdrawing then (refuse .targetGone, d)
    else
      match entryFields (byteAt body 1) (byteAt body 4) with
      | none => (refuse .badField, d)
      | some (check, threshold) =>
        (⟨.ok, [byte i.val]⟩,
         d.updEntry i fun e =>
          { e with
            check := check
            label := halfAt body 2
            threshold := threshold
            misses := if e.presence = .missing then threshold else 0 })

/-- The normal form: refused IN_USE while referenced, otherwise VACANT at once (01 R15, check 4). -/
def withdrawNormal (i : TargetId) (d : Device) : Reply × Device :=
  if (d.entry i).refs = 0 then (⟨.ok, [Presence.vacant.code]⟩, d.updEntry i fun _ => .vacant) else (refuse .inUse, d)

/-- A conversation that names the target ends WITHDRAWN if it is ASSEMBLING or QUEUED (01 R17, step 2). -/
def withdrawWaiting (t : TargetId) (d : Device) (i : SlotId) : Device :=
  if (d.slot i).conv.target = .directory t then
    match (d.slot i).state with
    | .assembling => finish i (.unstarted .withdrawn) d
    | .queued => endQueued i .withdrawn d
    | .free | .running | .done => d
  else d

/-- The conversations in RUNNING that name the target (01 R17, step 3: at most one). -/
def runningOn (t : TargetId) (d : Device) : List SlotId :=
  (List.finRange 32).filter fun i => (d.slot i).state = .running ∧ (d.slot i).conv.target = .directory t

/-- The forced form (01 R16, R17). The engine takes the stop request after the directory's action of four steps is over (log 10). -/
def withdrawForced (i : TargetId) (d : Device) : Reply × Device :=
  if bankNames (d.schedule.bank d.schedule.active) i then (refuse .inPoll, d)
  else if d.schedule.swapPending && bankNames (d.schedule.bank d.schedule.shadow) i then (refuse .swapPending, d)
  else
    let d := (List.finRange 48).foldl (fun d k =>
      if (d.poll d.schedule.shadow k).any fun e => e.config.target == i then clearShadowEntry k d else d) d
    let d := (List.finRange 32).foldl (withdrawWaiting i) d
    let running := runningOn i d
    let d := running.foldl (fun d k => setStop k .withdrawn d) d
    if (d.entry i).refs = 0 then (⟨.ok, [Presence.vacant.code]⟩, d.updEntry i fun _ => .vacant)
    else
      (⟨.ok, [Presence.withdrawing.code]⟩,
       running.foldl (fun d k => takeStopInWait k d) (d.updEntry i fun e => { e with presence := .withdrawing }))

/-- WITHDRAW_TARGET: the checks of both forms, then the form's own (01 R15, R16). -/
def requestWithdrawTarget (body : List Byte) (d : Device) : Reply × Device :=
  match index 64 (byteAt body 0) with
  | none => (refuse .badField, d)
  | some i =>
    if 2 ≤ (byteAt body 1).toNat then (refuse .badField, d)
    else if (d.entry i).presence = .vacant then (refuse .unknownTarget, d)
    else if (d.entry i).presence = .withdrawing then (refuse .targetGone, d)
    else if byteAt body 1 = 0#8 then withdrawNormal i d
    else withdrawForced i d

/-- The fields of READ_TARGET: a VACANT entry's other fields are absent, sent as 0 (01 R19, 10 R181). -/
def Entry.bytes (e : Entry) : List Byte :=
  if e.presence = .vacant then padTo 9 [e.presence.code]
  else
    [e.presence.code, byte e.segment.val, e.address.setWidth 8, e.check.code] ++ le16 e.label ++
      [byte e.threshold, byte e.misses, byte e.refs]

/-- READ_TARGET (01 R19). -/
def requestReadTarget (body : List Byte) (d : Device) : Reply × Device :=
  match index 64 (byteAt body 0) with
  | none => (refuse .badField, d)
  | some i => (⟨.ok, (d.entry i).bytes⟩, d)

/-- Up to 12 entries that are not VACANT, from a start index (01 R20). -/
def listed (start : Nat) (d : Device) : List TargetId :=
  ((List.finRange 64).filter fun i => start ≤ i.val ∧ (d.entry i).presence ≠ .vacant).take 12

/-- The next index to ask for (01 R20). -/
def nextIndex (l : List TargetId) : Nat :=
  match l.getLast? with
  | some i => if l.length = 12 then i.val + 1 else 64
  | none => 64

/-- LIST_TARGETS (01 R20). -/
def requestListTargets (body : List Byte) (d : Device) : Reply × Device :=
  match index 64 (byteAt body 0) with
  | none => (refuse .badField, d)
  | some start =>
    let l := listed start.val d
    (⟨.ok, [byte l.length, byte (nextIndex l)] ++ l.flatMap fun i =>
      [byte i.val, (d.entry i).presence.code, byte (d.entry i).segment.val, (d.entry i).address.setWidth 8]⟩, d)

end Sys2Proof.Machine
end

