-- ==== Sys2Proof/Machine/InboxRequests.lean ====
section
/-! DEFINITION. The requests of the Alert Inbox (06 R115, R116). -/

namespace Sys2Proof.Machine

/-- FETCH_INBOX: the oldest entry leaves the store (06 R115). -/
def requestFetchInbox (_body : List Byte) (d : Device) : Reply × Device :=
  match d.inbox.entries with
  | [] => (refuse .empty, d)
  | e :: rest =>
    (⟨.ok, [byte e.segment.val, e.kind.code, flagByte e.truncated, byte e.repeats, byte rest.length] ++ e.bytes⟩,
     d.updInbox fun x => { x with entries := rest })

/-- INBOX_STATUS: the counts, and on request the refusal count back to 0 (06 R116). -/
def requestInboxStatus (body : List Byte) (d : Device) : Reply × Device :=
  (⟨.ok, [byte d.inbox.entries.length, byte d.inbox.reserved] ++ le16 (BitVec.ofNat 16 d.inbox.refusals)⟩,
   if flagAt body 0 then d.updInbox fun x => { x with refusals := 0 } else d)

end Sys2Proof.Machine
end

