-- ==== Sys2Proof/Machine/LinkRequests.lean ====
section
/-! DEFINITION. The requests of the Message Port (09, sections 9.6 and 9.7, R170) and of the Report Queue (08 R155).
An owner takes a body that passed the length check and answers its reply and the device after its action (09 R164, case 4). -/

namespace Sys2Proof.Machine

/-- PING: identity and capacities (09 R171). -/
def requestPing (_body : List Byte) (d : Device) : Reply × Device :=
  (⟨.ok, le16 0x4D36#16 ++ [1#8, 4#8, 64#8, 32#8, 24#8, 48#8, 32#8, 16#8, 60#8]⟩, d)

/-- RESTART: the flag is set and the fallback timer starts (09 R173). -/
def requestRestart (_body : List Byte) (d : Device) : Reply × Device :=
  (⟨.ok, []⟩, d.updPort fun p => { p with restartPending := true, fallback := some Config.restartFallback })

/-- The counters in the order of LINK_STATUS (10 R181). -/
def Counters.bytes (c : Counters) : List Byte :=
  [c.accepted, c.checkErrors, c.truncated, c.strays, c.unanswered, c.resends].flatMap fun n => le16 (BitVec.ofNat 16 n)

/-- LINK_STATUS: the counters, the reply-queue count before this reply, the attention mode; clear takes effect after the reply
has been made (09 R172). The accepted counter already counts this request. -/
def requestLinkStatus (body : List Byte) (d : Device) : Reply × Device :=
  (⟨.ok, d.port.counters.bytes ++ [byte d.port.replies.length, d.port.attention.code]⟩,
   if flagAt body 0 then d.updPort fun p => { p with counters := .zero } else d)

/-- SET_ATTENTION: the new mode, answered with the mode before (09 R170). -/
def requestSetAttention (body : List Byte) (d : Device) : Reply × Device :=
  match attentionOf (byteAt body 0) with
  | none => (refuse .badField, d)
  | some m => (⟨.ok, [d.port.attention.code]⟩, d.updPort fun p => { p with attention := m })

/-- A mask field that names report kinds only, and not READY: bits 1 to 15 (08 R155, 10 R183). -/
def maskAllowed (m : Word) : Bool := m &&& 0xFFFF0001#32 == 0#32

/-- SET_REPORT_MASK: the new mask, answered with the old one and the queue's state as the request finds them (08 R155). -/
def requestSetReportMask (body : List Byte) (d : Device) : Reply × Device :=
  let m := ofLe32 (byteAt body 0) (byteAt body 1) (byteAt body 2) (byteAt body 3)
  let q := d.reports
  if maskAllowed m then
    (⟨.ok, le32 q.mask ++ [byte q.list.length, flagByte q.marker.isSome] ++ le16 (BitVec.ofNat 16 (q.marker.getD 0)) ++ le16 q.next⟩,
     d.updReports fun q => { q with mask := m })
  else (refuse .badField, d)

end Sys2Proof.Machine
end

