-- ==== Sys2Proof/Machine/PoolRequests.lean ====
section
/-! DEFINITION. The requests of the Conversation Pool (02 R22, R28 to R32, R36, R41, R42). -/

namespace Sys2Proof.Machine

/-- The two checks that every request naming a handle makes first (02 R22). -/
def onConversation (body : List Byte) (f : SlotId → Device → Reply × Device) (d : Device) : Reply × Device :=
  match handleAt body with
  | none => (refuse .badField, d)
  | some h =>
    if (d.slot h.slot).state = .free ∨ (d.slot h.slot).gen ≠ h.gen then (refuse .unknownConversation, d) else f h.slot d

/-- The slot a host conversation would take: none when no slot is FREE or the host holds its 24 (02 R23). -/
def hostSlot (d : Device) : Option SlotId := if hostHeld d < Config.hostSlots then lowestFree d else none

/-- The check on a directory target: not VACANT, not WITHDRAWING (02 R28, checks 3 and 4). -/
def targetRefusal (t : Target) (d : Device) : Option Status :=
  match t with
  | .directory i =>
    if (d.entry i).presence = .vacant then some .unknownTarget
    else if (d.entry i).presence = .withdrawing then some .targetGone
    else none
  | .raw .. => none

/-- The record of a host conversation, before anything has happened to it (02 R24, R28). -/
def Header.conv (h : Header) (steps : List Step) : Conv where
  origin := .host
  target := h.target
  cls := h.cls
  mode := some h.mode
  retry := h.retry
  deadline := h.deadline
  steps := steps
  stop := none
  result := none
  assemblyTimer := none
  deadlineTimer := none

/-- The steps that a run of record bytes holds; none when a record is malformed (10 R179). -/
def stepsOf (l : List Byte) : Option (List Step) := (recordsOf l).bind fun rs => rs.mapM RawStep.step

/-- OPEN_CONVERSATION (02 R28). -/
def requestOpenConversation (body : List Byte) (d : Device) : Reply × Device :=
  match headerAt body with
  | none => (refuse .badField, d)
  | some h =>
    match hostSlot d with
    | none => (refuse .poolFull, d)
    | some i =>
      match targetRefusal h.target d with
      | some s => (refuse s, d)
      | none =>
        (⟨.ok, (d.handle i).bytes⟩,
         placeConversation i .assembling { h.conv [] with assemblyTimer := some Config.assemblyIdle } d)

/-- APPEND_STEPS once its handle is known to name the slot (02 R29). -/
def appendSteps (body : List Byte) (i : SlotId) (d : Device) : Reply × Device :=
  if (d.slot i).state = .assembling then
    match stepsOf (body.drop 3) with
    | none => (refuse .badField, d)
    | some new =>
      let steps := (d.slot i).conv.steps ++ new
      if joinsAllowed steps then
        if withinLimits steps then
          (⟨.ok, [byte steps.length]⟩,
           d.updSlot i fun s => { s with conv := { s.conv with steps := steps, assemblyTimer := some Config.assemblyIdle } })
        else (refuse .limit, d)
      else (refuse .badField, d)
  else (refuse .wrongState, d)

def requestAppendSteps (body : List Byte) (d : Device) : Reply × Device := onConversation body (appendSteps body) d

/-- SUBMIT_CONVERSATION once its handle is known to name the slot (02 R31); the join leads to a selection (03 R45, R47). -/
def submitConversation (i : SlotId) (d : Device) : Reply × Device :=
  let c := (d.slot i).conv
  if (d.slot i).state = .assembling then
    if c.steps = [] then (refuse .empty, d)
    else if lastJoined c.steps then (refuse .badField, d)
    else if (d.seg (targetSegment d c.target)).state = .off then (refuse .segmentOff, d)
    else (⟨.ok, []⟩, makeSelection (targetSegment d c.target) (queueConversation i d))
  else (refuse .wrongState, d)

def requestSubmitConversation (body : List Byte) (d : Device) : Reply × Device := onConversation body submitConversation d

/-- The last three checks of RUN_CONVERSATION, and its action (02 R32); the join leads to a selection (03 R45, R47). -/
def runChecked (h : Header) (steps : List Step) (d : Device) : Reply × Device :=
  match hostSlot d with
  | none => (refuse .poolFull, d)
  | some i =>
    match targetRefusal h.target d with
    | some s => (refuse s, d)
    | none =>
      if (d.seg (targetSegment d h.target)).state = .off then (refuse .segmentOff, d)
      else
        (⟨.ok, (d.handle i).bytes⟩,
         makeSelection (targetSegment d h.target) (queueConversation i (placeConversation i .queued (h.conv steps) d)))

/-- RUN_CONVERSATION (02 R32). -/
def requestRunConversation (body : List Byte) (d : Device) : Reply × Device :=
  match headerAt body, stepsOf (body.drop (headerLength body)) with
  | some h, some steps =>
    if joinsAllowed steps then
      if withinLimits steps then
        if steps = [] then (refuse .empty, d)
        else if lastJoined steps then (refuse .badField, d)
        else runChecked h steps d
      else (refuse .limit, d)
    else (refuse .badField, d)
  | _, _ => (refuse .badField, d)

/-- CANCEL_CONVERSATION by the slot's state (02 R36). A stop request set on a waiting conversation is taken at once (05 R101). -/
def cancelConversation (i : SlotId) (d : Device) : Reply × Device :=
  match (d.slot i).state with
  | .assembling => (⟨.ok, []⟩, releaseTarget (d.slot i).conv.target (freeSlot i d))
  | .queued => (⟨.ok, []⟩, endQueued i .cancelled d)
  | .running => (⟨.pending, []⟩, takeStopInWait i (setStop i .cancelled d))
  | .done => (refuse .alreadyDone, d)
  | .free => (refuse .unknownConversation, d)

def requestCancelConversation (body : List Byte) (d : Device) : Reply × Device := onConversation body cancelConversation d

/-- The completed-step count that CONVERSATION_STATUS reports (02 R41). -/
def completedCount (i : SlotId) (d : Device) : Nat :=
  let s := d.slot i
  match s.state with
  | .running =>
    match (d.seg (targetSegment d s.conv.target)).work with
    | .conversation h ctx => if h.slot = i then ctx.completed else 0
    | .nothing => 0
    | .sweep _ => 0
  | .done => (s.conv.result.map ConvResult.completed).getD 0
  | .free => 0
  | .assembling => 0
  | .queued => 0

/-- The origin's three bytes: bank and entry index are sent as 0 for HOST (10 R181; log 12). -/
def Origin.bytes : Origin → List Byte
  | .host => [0#8, 0#8, 0#8]
  | .poll bank k => [1#8, bank.code, byte k.val]

/-- The pending stop cause, present only in RUNNING (02 R41). -/
def shownStop (s : Slot) : Option StopCause := if s.state = .running then s.conv.stop else none

/-- The outcome, present only in DONE (02 R41). -/
def shownOutcome (s : Slot) : Option ConvOutcome := if s.state = .done then s.conv.result.map ConvResult.outcome else none

/-- The presence byte, stop cause and outcome of CONVERSATION_STATUS (10 R181). -/
def stopAndOutcome (s : Slot) : List Byte :=
  [byte ((if (shownStop s).isSome then 1 else 0) + (if (shownOutcome s).isSome then 2 else 0)),
   ((shownStop s).map fun c => c.outcome.code).getD 0#8, ((shownOutcome s).map ConvOutcome.code).getD 0#8]

/-- CONVERSATION_STATUS (02 R41, 10 R181). -/
def conversationStatus (i : SlotId) (d : Device) : Reply × Device :=
  let s := d.slot i
  (⟨.ok, [s.state.code] ++ s.conv.origin.bytes ++ [byte s.conv.steps.length, byte (completedCount i d)] ++ stopAndOutcome s⟩, d)

def requestConversationStatus (body : List Byte) (d : Device) : Reply × Device := onConversation body conversationStatus d

/-- The fields of FETCH_RESULT from an offset (02 R42, 10 R181). -/
def ConvResult.bytesFrom (offset : Nat) (r : ConvResult) : List Byte :=
  [r.outcome.code, byte r.completed, flagByte r.failing.isSome, numberField r.failing, byte (r.lastValue.getD []).length] ++
    valueField r.lastValue ++ [byte r.bytes.length] ++ (r.bytes.drop offset).take 40

/-- FETCH_RESULT once its handle is known to name the slot (02 R42). A slot in DONE always holds a result (02 R37). -/
def fetchResult (body : List Byte) (i : SlotId) (d : Device) : Reply × Device :=
  if within 0 64 (byteAt body 3).toNat then
    match (d.slot i).state, (d.slot i).conv.result with
    | .done, some r =>
      (⟨.ok, r.bytesFrom (byteAt body 3).toNat⟩, if flagAt body 4 then freeSlot i d else d)
    | _, _ => (refuse .wrongState, d)
  else (refuse .badField, d)

def requestFetchResult (body : List Byte) (d : Device) : Reply × Device := onConversation body (fetchResult body) d

end Sys2Proof.Machine
end

