-- ==== Sys2Proof/Machine/DueEvaluation.lean ====
section
/-! DEFINITION. Due evaluation and the frame boundary (07, sections 7.2 and 7.5). -/

namespace Sys2Proof.Machine

/-- The deadline of an instance: period times frame length in ms, at most 65535 (02 R33, 07 R142). -/
def instanceDeadline (c : PollConfig) (frameLength : Nat) : Nat := min (c.period * frameLength) Config.maxDeadline

/-- The record of a poll conversation (02 R33). -/
def instanceConv (bank : Bank) (i : PollId) (c : PollConfig) (frameLength : Nat) : Conv where
  origin := .poll bank i
  target := .directory c.target
  cls := c.cls
  mode := none
  retry := ⟨0, Config.defaultGap, Config.defaultBudget⟩
  deadline := some (instanceDeadline c frameLength)
  steps := [.read (some c.command) c.length false]
  stop := none
  result := none
  assemblyTimer := none
  deadlineTimer := none

/-- An instance is created in a FREE slot and queued; the entry records it as outstanding and its skip flag is cleared (07 R142). -/
def createInstance (bank : Bank) (i : PollId) (e : PollEntry) (slot : SlotId) (d : Device) : Device :=
  let d := queueConversation slot (placeConversation slot .queued (instanceConv bank i e.config d.schedule.frameLength) d)
  d.setPoll bank i (some { e with outstanding := some (d.handle slot), skipReported := false })

/-- A due entry is handled by the first case that applies: overrun, no free slot, segment OFF, creation (07 R139 to R142). -/
def handleDue (bank : Bank) (i : PollId) (e : PollEntry) (d : Device) : Device :=
  match e.outstanding with
  | some _ =>
    let d := if e.overrun = 0 then post (.pollOverrun bank i) d else d
    d.setPoll bank i (some { e with overrun := satInc255 e.overrun })
  | none =>
    match lowestFree d with
    | none =>
      let d := if e.skipReported then d else post (.pollSkipped bank i) d
      d.setPoll bank i (some { e with skipReported := true })
    | some slot =>
      if (d.seg (d.entry e.config.target).segment).state = .off then applyFailure bank i e .segmentOff d
      else createInstance bank i e slot d

/-- An entry falls due in a frame when the frame number modulo its period is its phase (07 R139). -/
def PollEntry.dueIn (e : PollEntry) (frame : Word) : Bool := frame.toNat % e.config.period == e.config.phase

/-- One entry of the active bank is tested for the current frame. -/
def evaluateEntry (d : Device) (i : PollId) : Device :=
  match d.poll d.schedule.active i with
  | none => d
  | some e => if e.dueIn d.schedule.frame then handleDue d.schedule.active i e d else d

/-- Every entry of the active bank is tested in index order (07 R129, R130). -/
def evaluateFrame (d : Device) : Device := (List.finRange 48).foldl evaluateEntry d

/-- A frame boundary (07 R130). -/
def frameBoundary (d : Device) : Device :=
  let d := d.updSchedule fun s => { s with frame := s.frame + 1#32 }
  let d := evaluateFrame (swapIfPending d)
  d.updSchedule fun s => { s with timer := some s.frameLength }

end Sys2Proof.Machine
end

