-- ==== Sys2Proof/Machine/ScheduleRequests.lean ====
section
/-! DEFINITION. The requests of the Poll Scheduler (07 R128, R129, R131 to R136). -/

namespace Sys2Proof.Machine

/-- SET_FRAME (07 R128). -/
def requestSetFrame (body : List Byte) (d : Device) : Reply × Device :=
  if within 1 100 (byteAt body 0).toNat then
    if d.schedule.running then (refuse .scheduleRunning, d)
    else (⟨.ok, []⟩, d.updSchedule fun s => { s with frameLength := (byteAt body 0).toNat })
  else (refuse .badField, d)

/-- STOPPED passes to RUNNING: frame 0 is evaluated and the frame timer starts (07 R129). -/
def startSchedule (d : Device) : Device :=
  let d := evaluateFrame (d.updSchedule fun s => { s with frame := 0#32, running := true })
  d.updSchedule fun s => { s with timer := some s.frameLength }

/-- START_SCHEDULE (07 R129); then come the selections that its joins lead to (03 R47; log 35). -/
def requestStartSchedule (_body : List Byte) (d : Device) : Reply × Device :=
  if d.schedule.running then (refuse .scheduleRunning, d) else (⟨.ok, []⟩, selectAfterJoins d (startSchedule d))

/-- STOP_SCHEDULE: accepted in STOPPED too, where it changes nothing (07 R131). -/
def requestStopSchedule (_body : List Byte) (d : Device) : Reply × Device :=
  let made := d.schedule.running && d.schedule.swapPending
  (⟨.ok, flagByte made :: le32 d.schedule.frame⟩,
   if d.schedule.running then swapIfPending (d.updSchedule fun s => { s with timer := none, running := false }) else d)

/-- The configuration fields of a PUT_POLL body, if all are in range (07 R132, check 1; 10 R181). Mask bytes beyond the read length are
not read. -/
def pollConfigAt (body : List Byte) : Option PollConfig :=
  match index 64 (byteAt body 1), policyOf (byteAt body 8), classOf (byteAt body 9) with
  | some target, some policy, some cls =>
    let length := (byteAt body 3).toNat
    let period := (halfAt body 4).toNat
    let phase := (halfAt body 6).toNat
    if within 1 4 length && within 1 1000 period && decide (phase < period) then
      some ⟨target, byteAt body 2, length, period, phase, (body.drop 10).take length, policy, cls⟩
    else none
  | _, _, _ => none

/-- PUT_POLL (07 R132). -/
def requestPutPoll (body : List Byte) (d : Device) : Reply × Device :=
  match index 48 (byteAt body 0), pollConfigAt body with
  | some i, some c =>
    if d.schedule.swapPending then (refuse .swapPending, d)
    else if (d.entry c.target).presence = .vacant then (refuse .unknownTarget, d)
    else if (d.entry c.target).presence = .withdrawing then (refuse .targetGone, d)
    else (⟨.ok, [byte i.val]⟩, writeShadowEntry i c d)
  | _, _ => (refuse .badField, d)

/-- CLEAR_POLL (07 R133). -/
def requestClearPoll (body : List Byte) (d : Device) : Reply × Device :=
  match index 48 (byteAt body 0) with
  | none => (refuse .badField, d)
  | some i =>
    if d.schedule.swapPending then (refuse .swapPending, d)
    else (⟨.ok, [flagByte (d.poll d.schedule.shadow i).isSome]⟩, clearShadowEntry i d)

/-- Every shadow entry becomes unused and releases its reference (07 R133, R134). -/
def clearShadow (d : Device) : Device := (List.finRange 48).foldl (fun d i => clearShadowEntry i d) d

/-- CLEAR_SHADOW (07 R133). -/
def requestClearShadow (_body : List Byte) (d : Device) : Reply × Device :=
  if d.schedule.swapPending then (refuse .swapPending, d)
  else (⟨.ok, [byte (usedCount (d.schedule.bank d.schedule.shadow))]⟩, clearShadow d)

/-- One index of the copy: a used active entry is written into the shadow bank (07 R134, step 2). -/
def copyEntry (d : Device) (i : PollId) : Device :=
  match d.poll d.schedule.active i with
  | none => d
  | some e => writeShadowEntry i e.config d

/-- COPY_ACTIVE (07 R134). -/
def requestCopyActive (_body : List Byte) (d : Device) : Reply × Device :=
  if d.schedule.swapPending then (refuse .swapPending, d)
  else
    (⟨.ok, [byte (usedCount (d.schedule.bank d.schedule.active))]⟩, (List.finRange 48).foldl copyEntry (clearShadow d))

/-- COMMIT_BANK (07 R136). A swap is never pending in STOPPED (07 R129). -/
def requestCommitBank (_body : List Byte) (d : Device) : Reply × Device :=
  if d.schedule.running then
    if d.schedule.swapPending then (refuse .swapPending, d)
    else (⟨.pending, [d.schedule.shadow.code]⟩, d.updSchedule fun s => { s with swapPending := true })
  else (⟨.ok, [d.schedule.shadow.code]⟩, swapBanks d)

/-- The fields of a used poll entry as READ_POLL sends them (10 R181). -/
def PollEntry.bytes (e : PollEntry) : List Byte :=
  [byte e.config.target.val, e.config.command, byte e.config.length] ++ le16 (BitVec.ofNat 16 e.config.period) ++
    le16 (BitVec.ofNat 16 e.config.phase) ++ padTo 4 e.config.mask ++ [e.config.policy.code, e.config.cls.code] ++
    [byte ((if e.lastValue.isSome then 1 else 0) + (if e.outstanding.isSome then 2 else 0))] ++ valueField e.lastValue ++
    [flagByte e.failing, byte e.overrun, flagByte e.skipReported] ++ handleField e.outstanding

/-- The scheduler's own state as READ_POLL sends it (10 R181). -/
def Schedule.bytes (s : Schedule) : List Byte :=
  [if s.running then 1#8 else 0#8, byte s.frameLength] ++ le32 s.frame ++ [s.active.code, flagByte s.swapPending]

/-- READ_POLL (07 R135): an unused entry's fields are absent, sent as 0. -/
def requestReadPoll (body : List Byte) (d : Device) : Reply × Device :=
  match bankOf (byteAt body 0), index 48 (byteAt body 1) with
  | some bank, some i =>
    (⟨.ok, d.schedule.bytes ++ flagByte (d.poll bank i).isSome ::
      (((d.poll bank i).map PollEntry.bytes).getD (List.replicate 24 0#8))⟩, d)
  | _, _ => (refuse .badField, d)

end Sys2Proof.Machine
end

