-- ==== Sys2Proof/Machine/SegmentRequests.lean ====
section
/-! DEFINITION. The requests of the segment engines and queues (04 R60 to R62, R80, R83; 03 R53 to R55). -/

namespace Sys2Proof.Machine

/-- A request whose body begins with a segment: outside 0 to 3 it is refused BAD_FIELD. -/
def onSegment (body : List Byte) (f : SegId → Device → Reply × Device) (d : Device) : Reply × Device :=
  match index 4 (byteAt body 0) with
  | none => (refuse .badField, d)
  | some seg => f seg d

/-! ## Configuration (04 R60, R61) -/

/-- The configuration record a body gives, if every field is in range (04 R60, checks 1 and 2). -/
def configAt (body : List Byte) : Option SegConfig :=
  match speedOf (byteAt body 2) with
  | none => none
  | some speed =>
    if within 1 100 (byteAt body 3).toNat && (byteAt body 4 == 0#8 || assignable (byteAt body 4)) &&
        within 0x01 0x7F (byteAt body 7).toNat && (byteAt body 4 == 0#8 || byteAt body 4 != byteAt body 7) then
      some ⟨flagAt body 1, speed, (byteAt body 3).toNat, (byteAt body 4).setWidth 7, flagAt body 5, flagAt body 6,
        (byteAt body 7).setWidth 7⟩
    else none

/-- The segment may be configured: OFF, or HELD and IDLE or BLOCKED; and no reception in progress (04 R60, check 3). -/
def Segment.configurable (g : Segment) : Bool :=
  (g.state == .off || (g.held && (g.state == .idle || g.state == .blocked))) && !g.reception.inProgress

/-- The segment after an accepted CONFIGURE_SEGMENT, by its old state and the new enabled field (04 R61). The sweep is disarmed by disabling
or by clearing sweep enable (06 R117); a low ALR is taken as a fall when the segment is enabled or stays enabled (06 R118); a receiver that
is now inactive holds the record NONE (06 R105). -/
def Segment.configure (c : SegConfig) (g : Segment) : Segment :=
  let g := { g with config := c }
  let g := if c.enabled && c.sweepEnable then g else g.disarm
  let g :=
    if c.enabled then
      if g.state = .off then { g with state := .idle, owner := .taken, freeCount := false } else g
    else { g with state := .off, owner := .nobody, freeCount := false }
  let g := if g.receiverActive then g else { g with reception := .nothing, ackDriven := false }
  if c.enabled && g.alrLow then g.alrFell else g

/-- CONFIGURE_SEGMENT (04 R60, R61). Enabling makes no selection, though R47 names it: it leaves the bus taken (04 R63), and a segment that
stays enabled is HELD. -/
def configureSegment (body : List Byte) (seg : SegId) (d : Device) : Reply × Device :=
  match configAt body with
  | none => (refuse .badField, d)
  | some c =>
    let g := d.seg seg
    if g.configurable then
      if c.enabled || (g.urgent.isEmpty && g.normal.isEmpty) then
        if c.ownAddress ≠ 0#7 ∧ (lookup seg c.ownAddress d).isSome then (refuse .addressIsOwn, d)
        else
          let d := d.updSeg seg (Segment.configure c)
          (⟨.ok, [(d.seg seg).state.code]⟩, d)
      else (refuse .busy, d)
    else (refuse .busy, d)

def requestConfigureSegment (body : List Byte) (d : Device) : Reply × Device := onSegment body (configureSegment body) d

/-! ## Status (04 R62, 03 R57) -/

/-- The seven configuration bytes in request order. -/
def SegConfig.bytes (c : SegConfig) : List Byte :=
  [flagByte c.enabled, c.speed.code, byte c.stallLimit, c.ownAddress.setWidth 8, flagByte c.broadcast, flagByte c.sweepEnable,
   c.sweepAddress.setWidth 8]

/-- The direction of the transaction the engine has on the wire. -/
def Device.txnReads (d : Device) (seg : SegId) : Bool := (d.txn seg).any (·.reads)

/-- The sub-state code; 0 outside a transaction (04 R62, 05 R84). -/
def subState (seg : SegId) (d : Device) : Byte :=
  match (d.seg seg).work.pos with
  | none => 0#8
  | some p => posCode (d.txnReads seg) p

/-- The running indication and its handle as bytes (03 R53, 10 R181). -/
def runningBytes (w : Work) : List Byte := w.indication.1 :: handleField w.indication.2

/-- SEGMENT_STATUS (04 R62). -/
def requestSegmentStatus (body : List Byte) (d : Device) : Reply × Device :=
  onSegment body (fun seg d =>
    let g := d.seg seg
    (⟨.ok, [g.state.code, flagByte g.fromBlocked] ++ g.config.bytes ++ [g.owner.code, subState seg d] ++ runningBytes g.work ++
      [flagByte (g.sweep == .pending), if g.alrLow then 0#8 else 1#8, flagByte g.fault.isSome, flagByte g.reception.inProgress,
       byte g.urgent.length, byte g.normal.length, byte g.streak, flagByte g.held]⟩, d)) d

/-! ## Hold, release, flush (03 R53 to R55) -/

/-- HOLD_SEGMENT (03 R53). -/
def requestHoldSegment (body : List Byte) (d : Device) : Reply × Device :=
  onSegment body (fun seg d => (⟨.ok, runningBytes (d.seg seg).work⟩, d.updSeg seg fun g => { g with held := true })) d

/-- RELEASE_SEGMENT: clearing HELD is an event of R47, so a selection is made at once (03 R54). -/
def requestReleaseSegment (body : List Byte) (d : Device) : Reply × Device :=
  onSegment body (fun seg d =>
    (⟨.ok, []⟩, if (d.seg seg).held then makeSelection seg (d.updSeg seg fun g => { g with held := false }) else d)) d

/-- FLUSH_SEGMENT: the URGENT list from head to tail, then the NORMAL list; each ends CANCELLED (03 R55). -/
def requestFlushSegment (body : List Byte) (d : Device) : Reply × Device :=
  onSegment body (fun seg d =>
    let waiting := (d.seg seg).urgent ++ (d.seg seg).normal
    let d := waiting.foldl (fun d h =>
      finish h.slot (.unstarted .cancelled) (d.updSeg seg (Segment.dequeue h))) d
    (⟨.ok, [byte waiting.length]⟩, d.updSeg seg fun g => { g with urgent := [], normal := [], streak := 0 })) d

/-! ## Reset and fault record (04 R80, R83) -/

/-- Steps 1 and 2 of RESET_SEGMENT: the running conversation ends SEGMENT_RESET, with an address event if its acknowledge bit had been
sampled; a running sweep ends without result (04 R80). -/
def abortWork (seg : SegId) (d : Device) : Device :=
  match (d.seg seg).work with
  | .nothing => d
  | .sweep _ => endSweep seg d
  | .conversation h ctx =>
    let sampled :=
      match ctx.phase with
      | .transaction _ _ pos => posSampled pos
      | _ => none
    endConversation seg h ctx .segmentReset (some ctx.completed) (addressEvent (d.conv h).target sampled d)

/-- RESET_SEGMENT (04 R80). -/
def requestResetSegment (body : List Byte) (d : Device) : Reply × Device :=
  onSegment body (fun seg d =>
    let g := d.seg seg
    if g.state = .off then (refuse .segmentOff, d)
    else
      let fromBlocked := g.state == .blocked || (g.state == .recovering && g.fromBlocked)
      let d := abortWork seg d
      let d := d.updSeg seg fun g => { g with fault := none }.disarm
      (⟨.ok, runningBytes g.work⟩, enterRecovering seg fromBlocked d)) d

/-- The fields of READ_FAULT: of an empty record all are absent, sent as 0 (04 R83, 10 R181). -/
def faultBytes (f : Option FaultRecord) : List Byte :=
  match f with
  | none => padTo 9 [flagByte false]
  | some f =>
    [flagByte true, f.kind.code, byte ((if f.running.isSome then 1 else 0) + (if f.byteIndex.isSome then 2 else 0))] ++
      handleField (f.running.map Prod.fst) ++ [numberField (f.running.map Prod.snd), numberField f.byteIndex, byte f.further]

/-- READ_FAULT (04 R83). -/
def requestReadFault (body : List Byte) (d : Device) : Reply × Device :=
  onSegment body (fun seg d =>
    (⟨.ok, faultBytes (d.seg seg).fault⟩, if flagAt body 1 then d.updSeg seg fun g => { g with fault := none } else d)) d

end Sys2Proof.Machine
end

