-- ==== Sys2Proof/Machine/Port.lean ====
section
/-! DEFINITION. The Message Port (09): requests handed to their owners, the reply queue, the parser, the outbound frame, transfers, and
the device reset (08 R156, 09 R174, R175). -/

namespace Sys2Proof.Machine

/-! ## The device reset -/

/-- A transfer in progress at a reset, or ignored already, is ignored to its end (09 R174, R175). -/
def Transfer.atReset : Transfer → Transfer
  | .idle => .idle
  | .active => .ignored
  | .ignored => .ignored

/-- Every block at its value after a device reset (09 R174). The pins ALR, MSEL and RSTN are inputs and keep their levels. -/
def deviceReset (reports : ReportQueue) (d : Device) : Device :=
  { Device.reset with
    segments := mapTable (fun _ g => Segment.initial g.alrLow) d.segments
    reports := reports
    port := .initial d.port.transfer.atReset
    rstnLow := d.rstnLow }

/-! ## Requests (09 R164) and rejects (09 R162) -/

/-- The block that owns a request's state carries it out (09 R164, case 4). -/
def owner (k : RequestKind) (body : List Byte) (d : Device) : Reply × Device :=
  match k with
  | .ping => requestPing body d
  | .restart => requestRestart body d
  | .linkStatus => requestLinkStatus body d
  | .setAttention => requestSetAttention body d
  | .setReportMask => requestSetReportMask body d
  | .addTarget => requestAddTarget body d
  | .modifyTarget => requestModifyTarget body d
  | .withdrawTarget => requestWithdrawTarget body d
  | .readTarget => requestReadTarget body d
  | .listTargets => requestListTargets body d
  | .configureSegment => requestConfigureSegment body d
  | .segmentStatus => requestSegmentStatus body d
  | .holdSegment => requestHoldSegment body d
  | .releaseSegment => requestReleaseSegment body d
  | .resetSegment => requestResetSegment body d
  | .flushSegment => requestFlushSegment body d
  | .readFault => requestReadFault body d
  | .openConversation => requestOpenConversation body d
  | .appendSteps => requestAppendSteps body d
  | .submitConversation => requestSubmitConversation body d
  | .runConversation => requestRunConversation body d
  | .cancelConversation => requestCancelConversation body d
  | .conversationStatus => requestConversationStatus body d
  | .fetchResult => requestFetchResult body d
  | .setFrame => requestSetFrame body d
  | .startSchedule => requestStartSchedule body d
  | .stopSchedule => requestStopSchedule body d
  | .putPoll => requestPutPoll body d
  | .clearPoll => requestClearPoll body d
  | .clearShadow => requestClearShadow body d
  | .copyActive => requestCopyActive body d
  | .commitBank => requestCommitBank body d
  | .readPoll => requestReadPoll body d
  | .fetchInbox => requestFetchInbox body d
  | .inboxStatus => requestInboxStatus body d

/-- The reply queue holds its 4 frames (09 R165). -/
def Device.repliesFull (d : Device) : Bool := Config.replyPlaces ≤ d.port.replies.length

def countAccepted (d : Device) : Device :=
  d.updPort fun p => { p with counters := { p.counters with accepted := satInc p.counters.accepted } }

def countCheckError (d : Device) : Device :=
  d.updPort fun p => { p with counters := { p.counters with checkErrors := satInc p.counters.checkErrors } }

def countTruncated (d : Device) : Device :=
  d.updPort fun p => { p with counters := { p.counters with truncated := satInc p.counters.truncated } }

def countStray (d : Device) : Device :=
  d.updPort fun p => { p with counters := { p.counters with strays := satInc p.counters.strays } }

def countUnanswered (d : Device) : Device :=
  d.updPort fun p => { p with counters := { p.counters with unanswered := satInc p.counters.unanswered } }

def countResend (d : Device) : Device :=
  d.updPort fun p => { p with counters := { p.counters with resends := satInc p.counters.resends } }

/-- A frame joins the tail of the reply queue (09 R165). -/
def pushReply (f : Frame) (d : Device) : Device := d.updPort fun p => { p with replies := p.replies ++ [f] }

/-- The status and values of a request that found a place: RESTARTING, BAD_LENGTH, or the owner's (09 R164, cases 2 to 4). -/
def answerRequest (k : RequestKind) (body : List Byte) (d : Device) : Reply × Device :=
  if d.port.restartPending then (refuse .restarting, d)
  else if lengthAllowed k body then owner k body d
  else (refuse .badLength, d)

/-- A request taken at DONE (09 R164). The accepted counter counts the request before its owner acts (09 R172). -/
def takeRequest (k : RequestKind) (tag : Byte) (body : List Byte) (d : Device) : Device :=
  if d.repliesFull then countUnanswered d
  else
    let a := answerRequest k body (countAccepted d)
    pushReply (a.1.frame k.code tag) a.2

/-- A REJECT frame is made: it is queued, or dropped by a full queue, and then the unanswered counter rises, for a frame of unknown kind
too (09 R162; that case 3 says "No counter changes" is read of the REJECT that is queued: the model's choice, log 33). -/
def rejectInbound (tag : Byte) (reason : RejectReason) (d : Device) : Device :=
  if d.repliesFull then countUnanswered d else pushReply (rejectFrameOf tag reason) d

/-- A frame whose last check byte has been taken is judged: check, kind, request (09 R162). -/
def judgeFrame (kind tag len : Byte) (body : List Byte) (check0 check1 : Byte) (d : Device) : Device :=
  if checkBytes (kind :: tag :: len :: body) = [check0, check1] then
    match RequestKind.ofCode kind with
    | some k => takeRequest k tag body d
    | none => rejectInbound tag .unknownKind d
  else rejectInbound tag .check (countCheckError d)

/-! ## The parser (09 R161) -/

def setParser (q : Parser) (d : Device) : Device := d.updPort fun p => { p with parser := q }

/-- The parser after the length byte: BODY, CHECK, or DONE with the frame refused (09 R161, R162). -/
def takeLength (kind tag len : Byte) (d : Device) : Device :=
  if len.toNat ≤ Config.maxBody then
    if len = 0#8 then setParser (.check kind tag len [] none) d else setParser (.body kind tag len []) d
  else rejectInbound tag .length (countCheckError (setParser .done d))

/-- The inbound effect of one byte: the parser takes it (09 R159, R161). -/
def parseByte (b : Byte) (d : Device) : Device :=
  match d.port.parser with
  | .hunt => if b = 0#8 then d else if b = marker then setParser .kind d else countStray d
  | .kind => setParser (.tag b) d
  | .tag kind => setParser (.length kind b) d
  | .length kind tag => takeLength kind tag b d
  | .body kind tag len got =>
    if (got ++ [b]).length < len.toNat then setParser (.body kind tag len (got ++ [b])) d
    else setParser (.check kind tag len (got ++ [b]) none) d
  | .check kind tag len got none => setParser (.check kind tag len got (some b)) d
  | .check kind tag len got (some c) => judgeFrame kind tag len got c b (setParser .done d)
  | .done => d

/-- An inbound frame has begun and has not reached DONE (09 R163). -/
def Parser.midFrame : Parser → Bool
  | .hunt => false
  | .done => false
  | .kind => true
  | .tag _ => true
  | .length .. => true
  | .body .. => true
  | .check .. => true

/-- How many bytes of the inbound frame the parser holds. -/
def Parser.taken : Parser → Nat
  | .hunt => 0
  | .done => 0
  | .kind => 1
  | .tag _ => 2
  | .length .. => 3
  | .body _ _ _ got => 4 + got.length
  | .check _ _ _ got first => 4 + got.length + (if first.isSome then 1 else 0)

/-! ## The outbound frame (09 R166, R167) -/

/-- The head of the report list is delivered; a marker is settled against its transfer mark (08 R152, R153). -/
def ReportQueue.deliverHead (q : ReportQueue) : ReportQueue :=
  let left := { q with list := q.list.tail, mark := none }
  match q.list.head?.bind fun r => r.body.lostCount, q.mark with
  | some n, some m => if m < n then left.append (.reportsLost (n - m)) else left
  | _, _ => left

/-- The chosen frame is delivered (09 R167). The delivery of the RESTART reply begins the device reset (09 R174). A report that was chosen
before a RESTART was accepted in the same transfer is delivered too, though 08 R157 names only the case of replies ahead (log 37). -/
def deliver (isReport : Bool) (f : Frame) (d : Device) : Device :=
  if isReport then (d.updReports ReportQueue.deliverHead).updPort fun p => { p with outbound := .delivered }
  else if f.isRestartReply then deviceReset (.ready .request) d
  else d.updPort fun p => { p with replies := p.replies.tail, outbound := .delivered }

/-- The outbound effect of one byte (09 R159, R167). -/
def clockOutByte (d : Device) : Device :=
  match d.port.outbound with
  | .chosen isReport f n =>
    if n + 1 < f.length then d.updPort fun p => { p with outbound := .chosen isReport f (n + 1) } else deliver isReport f d
  | .nothing => d
  | .delivered => d

/-- One byte of a transfer: the outbound effect, then the inbound effect, which a reset at the outbound effect forestalls
(09 R159, R174, R176). Outside a transfer and in one that is ignored a byte does nothing (09 R159, R175). -/
def clockByte (d : Device) (b : Byte) : Device :=
  if d.port.transfer = .active then
    let out := clockOutByte d
    if out.port.transfer = .active then parseByte b out else out
  else d

/-- Bytes of a transfer, in order. -/
def clockBytes (l : List Byte) (d : Device) : Device := l.foldl clockByte d

/-! ## Commands of the link as bytes -/

/-- The bytes of a frame that the parser has not taken yet are clocked (log 2). -/
def clockRest (l : List Byte) (d : Device) : Device := clockBytes (l.drop d.port.parser.taken) d

/-- A request frame is clocked in (09 R161 to R164). -/
def clockRequest (k : RequestKind) (tag : Byte) (body : List Byte) (d : Device) : Device :=
  clockRest (Frame.bytes ⟨k.code, tag, body⟩) d

/-- The bytes of a frame as they come, with the check bytes given. Past a length byte above 60 nothing more belongs to it (09 R162). -/
def rawFrameBytes (kind tag len : Byte) (body : List Byte) (check0 check1 : Byte) : List Byte :=
  [marker, kind, tag, len] ++ if len.toNat ≤ Config.maxBody then body ++ [check0, check1] else []

/-! ## Transfers (09 R159, R163, R166, R167) -/

/-- The outbound choice at a fall of MSEL: the head reply, else the head report, else none (09 R166). It holds until MSEL rises, also where
the same transfer brings a RESTART (log 37). -/
def chooseOutbound (d : Device) : Outbound :=
  match d.port.replies, d.reports.list with
  | f :: _, _ => .chosen false f 0
  | [], r :: _ => .chosen true r.frame 0
  | [], [] => .nothing

/-- The transfer mark at a fall of MSEL: the count of a marker that is chosen (08 R153). -/
def markAtStart (d : Device) : Option Nat :=
  if d.port.replies.isEmpty then d.reports.list.head?.bind fun r => r.body.lostCount else none

/-- MSEL falls. While RSTN is low the transfer is ignored (09 R175). MSEL that is low already cannot fall (log 6). -/
def startTransfer (d : Device) : Device :=
  match d.port.transfer with
  | .idle =>
    if d.rstnLow then d.updPort fun p => { p with transfer := .ignored }
    else
      (d.updReports fun q => { q with mark := markAtStart d }).updPort fun p =>
        { p with transfer := .active, parser := .hunt, outbound := chooseOutbound d }
  | .active => d
  | .ignored => d

/-- A chosen frame has not been delivered. -/
def Outbound.undelivered : Outbound → Bool
  | .chosen .. => true
  | .nothing => false
  | .delivered => false

/-- MSEL rises: a partial inbound frame is truncated, an undelivered frame is a resend, and its mark is dropped
(09 R163, R167; 08 R153). -/
def endTransfer (d : Device) : Device :=
  let closed := fun d : Device =>
    d.updPort fun p => { p with transfer := .idle, parser := .hunt, outbound := .nothing }
  match d.port.transfer with
  | .idle => d
  | .ignored => closed d
  | .active =>
    let cut := if d.port.parser.midFrame then countTruncated d else d
    closed
      (if d.port.outbound.undelivered then countResend (cut.updReports fun q => { q with mark := none }) else cut)

/-- The bytes of MDI that fall in what is left of the chosen frame; where none are given the host clocks 0x00 (log 3). -/
def restOfOutbound (mdi : List Byte) (d : Device) : List Byte :=
  match d.port.outbound with
  | .chosen _ f n => padTo (f.length - n) mdi
  | .nothing => []
  | .delivered => []

end Sys2Proof.Machine
end

