-- ==== Sys2Proof/Machine/RequestCommands.lean ====
section
/-! DEFINITION. The commands that are requests: the bytes of the request's frame that are still to come are clocked in (log 2), and the port
takes the frame at its last byte (09 R161 to R164). What a request does stands in its owner's file. -/

namespace Sys2Proof.Machine

/-- A command that changes the device and leaves the queue alone. -/
def State.run (f : Device → Device) (s : State) : Answer := .next { s with dev := f s.dev }

/-- PING (09 R171). -/
def execPing (tag : Byte) (body : List Byte) (s : State) : Answer := s.run fun d => clockRequest .ping tag body d

/-- RESTART (09 R173). -/
def execRestart (tag : Byte) (body : List Byte) (s : State) : Answer := s.run fun d => clockRequest .restart tag body d

/-- LINK_STATUS (09 R172). -/
def execLinkStatus (tag : Byte) (body : List Byte) (s : State) : Answer := s.run fun d => clockRequest .linkStatus tag body d

/-- SET_ATTENTION (09 R170). -/
def execSetAttention (tag : Byte) (body : List Byte) (s : State) : Answer := s.run fun d => clockRequest .setAttention tag body d

/-- SET_REPORT_MASK (08 R155). -/
def execSetReportMask (tag : Byte) (body : List Byte) (s : State) : Answer := s.run fun d => clockRequest .setReportMask tag body d

/-- ADD_TARGET (01 R5). -/
def execAddTarget (tag : Byte) (body : List Byte) (s : State) : Answer := s.run fun d => clockRequest .addTarget tag body d

/-- MODIFY_TARGET (01 R6). -/
def execModifyTarget (tag : Byte) (body : List Byte) (s : State) : Answer := s.run fun d => clockRequest .modifyTarget tag body d

/-- WITHDRAW_TARGET; its form byte is NORMAL in a well-formed command (01 R15; log 22). -/
def execWithdrawTargetNormal (tag : Byte) (body : List Byte) (s : State) : Answer := s.run fun d => clockRequest .withdrawTarget tag body d

/-- WITHDRAW_TARGET; its form byte is FORCED in a well-formed command (01 R16, R17; log 22). -/
def execWithdrawTargetForced (tag : Byte) (body : List Byte) (s : State) : Answer := s.run fun d => clockRequest .withdrawTarget tag body d

/-- READ_TARGET (01 R19). -/
def execReadTarget (tag : Byte) (body : List Byte) (s : State) : Answer := s.run fun d => clockRequest .readTarget tag body d

/-- LIST_TARGETS (01 R20). -/
def execListTargets (tag : Byte) (body : List Byte) (s : State) : Answer := s.run fun d => clockRequest .listTargets tag body d

/-- CONFIGURE_SEGMENT (04 R60, R61). -/
def execConfigureSegment (tag : Byte) (body : List Byte) (s : State) : Answer := s.run fun d => clockRequest .configureSegment tag body d

/-- SEGMENT_STATUS, with a note of where a transaction stands (04 R62; log 7). -/
def execSegmentStatus (wire : Option WireNote) (tag : Byte) (body : List Byte) (s : State) : Answer := s.run fun d => clockRequest .segmentStatus tag body (takeNote wire d)

/-- HOLD_SEGMENT (03 R53). -/
def execHoldSegment (tag : Byte) (body : List Byte) (s : State) : Answer := s.run fun d => clockRequest .holdSegment tag body d

/-- RELEASE_SEGMENT (03 R54). -/
def execReleaseSegment (tag : Byte) (body : List Byte) (s : State) : Answer := s.run fun d => clockRequest .releaseSegment tag body d

/-- RESET_SEGMENT, with a note of where a transaction stands (04 R80; log 7). -/
def execResetSegment (wire : Option WireNote) (tag : Byte) (body : List Byte) (s : State) : Answer := s.run fun d => clockRequest .resetSegment tag body (takeNote wire d)

/-- FLUSH_SEGMENT (03 R55). -/
def execFlushSegment (tag : Byte) (body : List Byte) (s : State) : Answer := s.run fun d => clockRequest .flushSegment tag body d

/-- READ_FAULT (04 R83). -/
def execReadFault (tag : Byte) (body : List Byte) (s : State) : Answer := s.run fun d => clockRequest .readFault tag body d

/-- OPEN_CONVERSATION (02 R28). -/
def execOpenConversation (tag : Byte) (body : List Byte) (s : State) : Answer := s.run fun d => clockRequest .openConversation tag body d

/-- APPEND_STEPS (02 R29). -/
def execAppendSteps (tag : Byte) (body : List Byte) (s : State) : Answer := s.run fun d => clockRequest .appendSteps tag body d

/-- SUBMIT_CONVERSATION (02 R31). -/
def execSubmitConversation (tag : Byte) (body : List Byte) (s : State) : Answer := s.run fun d => clockRequest .submitConversation tag body d

/-- RUN_CONVERSATION (02 R32). -/
def execRunConversation (tag : Byte) (body : List Byte) (s : State) : Answer := s.run fun d => clockRequest .runConversation tag body d

/-- CANCEL_CONVERSATION (02 R36). -/
def execCancelConversation (tag : Byte) (body : List Byte) (s : State) : Answer := s.run fun d => clockRequest .cancelConversation tag body d

/-- CONVERSATION_STATUS (02 R41). -/
def execConversationStatus (tag : Byte) (body : List Byte) (s : State) : Answer := s.run fun d => clockRequest .conversationStatus tag body d

/-- FETCH_RESULT (02 R42). -/
def execFetchResult (tag : Byte) (body : List Byte) (s : State) : Answer := s.run fun d => clockRequest .fetchResult tag body d

/-- SET_FRAME (07 R128). -/
def execSetFrame (tag : Byte) (body : List Byte) (s : State) : Answer := s.run fun d => clockRequest .setFrame tag body d

/-- START_SCHEDULE (07 R129). -/
def execStartSchedule (tag : Byte) (body : List Byte) (s : State) : Answer := s.run fun d => clockRequest .startSchedule tag body d

/-- STOP_SCHEDULE (07 R131). -/
def execStopSchedule (tag : Byte) (body : List Byte) (s : State) : Answer := s.run fun d => clockRequest .stopSchedule tag body d

/-- PUT_POLL (07 R132). -/
def execPutPoll (tag : Byte) (body : List Byte) (s : State) : Answer := s.run fun d => clockRequest .putPoll tag body d

/-- CLEAR_POLL (07 R133). -/
def execClearPoll (tag : Byte) (body : List Byte) (s : State) : Answer := s.run fun d => clockRequest .clearPoll tag body d

/-- CLEAR_SHADOW (07 R133). -/
def execClearShadow (tag : Byte) (body : List Byte) (s : State) : Answer := s.run fun d => clockRequest .clearShadow tag body d

/-- COPY_ACTIVE (07 R134). -/
def execCopyActive (tag : Byte) (body : List Byte) (s : State) : Answer := s.run fun d => clockRequest .copyActive tag body d

/-- COMMIT_BANK (07 R136). -/
def execCommitBank (tag : Byte) (body : List Byte) (s : State) : Answer := s.run fun d => clockRequest .commitBank tag body d

/-- READ_POLL (07 R135). -/
def execReadPoll (tag : Byte) (body : List Byte) (s : State) : Answer := s.run fun d => clockRequest .readPoll tag body d

/-- FETCH_INBOX (06 R115). -/
def execFetchInbox (tag : Byte) (body : List Byte) (s : State) : Answer := s.run fun d => clockRequest .fetchInbox tag body d

/-- INBOX_STATUS (06 R116). -/
def execInboxStatus (tag : Byte) (body : List Byte) (s : State) : Answer := s.run fun d => clockRequest .inboxStatus tag body d

end Sys2Proof.Machine
end

