-- ==== Sys2Proof/Machine/EventCommands.lean ====
section
/-! DEFINITION. The events of the pool's timers (02), the segment engines (03, 04, 05), the target receivers and alert sweeps (06) and the
frame timer (07). An event that cannot occur in the state it is given in changes nothing (log 6). -/

namespace Sys2Proof.Machine

/-! ## The pool's timers -/

/-- The assembly idle timer expires (02 R30). -/
def assemblyExpires (i : SlotId) (d : Device) : Device :=
  if (d.slot i).conv.assemblyTimer.isSome then
    post (.assemblyExpired (d.handle i)) (releaseTarget (d.slot i).conv.target (freeSlot i d))
  else d

/-- ASSEMBLY_EXPIRY (02 R30). -/
def execAssemblyExpiry (slot : SlotId) (s : State) : Answer := s.run (assemblyExpires slot)

/-- The deadline timer expires (02 R34); it does not run on after that (log 29). -/
def deadlineExpires (i : SlotId) (d : Device) : Device :=
  if (d.slot i).conv.deadlineTimer.isSome then
    match (d.slot i).state with
    | .queued => endQueued i .expired d
    | .running =>
      takeStopInWait i
        (setStop i .expired (d.updSlot i fun s => { s with conv := { s.conv with deadlineTimer := none } }))
    | .free | .assembling | .done => d
  else d

/-- DEADLINE_EXPIRY (02 R34). -/
def execDeadlineExpiry (slot : SlotId) (s : State) : Answer := s.run (deadlineExpires slot)

/-! ## Selection and the engine's work -/

/-- CONVERSATION_START: the selection of a conversation, given as a command (03 R50; log 4). -/
def execConversationStart (seg : SegId) (s : State) : Answer := s.run (startConversation seg)

/-- SWEEP_START: the selection of a pending sweep, given as a command (06 R119; log 4). -/
def execSweepStart (seg : SegId) (s : State) : Answer := s.run (startSweep seg)

/-- The address event of a transaction that ended with the target's answers (01 R9 to R11). -/
def answeredEvent (t : Target) (nakAt : Option Nat) (d : Device) : Device := addressEvent t (some (nakAt != some 0)) d

/-- A transaction of a conversation ends with the target's answers: judged (04 R71), its STOP placed, its address event sent, its outcome
classified (05 R86). -/
def conversationTxnEnds (seg : SegId) (h : Handle) (ctx : Context) (nakAt : Option Nat) (received : List Byte) (d : Device) : Device :=
  let c := d.conv h
  match ctx.phase, c.steps[ctx.current]? with
  | .transaction readHalf pec _, some step =>
    let a := targetAddress d c.target
    let r := (txnOf a readHalf pec step).judge a nakAt received
    classify seg h ctx readHalf step r.1 r.2 (answeredEvent c.target nakAt (placeStop seg d))
  | _, _ => d

/-- The transaction on the wire ends with the target's answers. -/
def transactionEnds (seg : SegId) (nakAt : Option Nat) (received : List Byte) (d : Device) : Device :=
  if (d.txn seg).isSome then
    match (d.seg seg).work with
    | .conversation h ctx => conversationTxnEnds seg h ctx nakAt received d
    | .sweep _ => sweepEnds seg nakAt received (placeStop seg d)
    | .nothing => d
  else d

/-- TRANSACTION_END (05 R86). -/
def execTransactionEnd (seg : SegId) (nakAt : Option Nat) (received : List Byte) (s : State) : Answer :=
  s.run (transactionEnds seg nakAt received)

/-- The engine loses arbitration in a byte it sends: it stops driving, and the bus is taken (04 R72; 05 R90; 06 R122). -/
def losesArbitration (seg : SegId) (byteIndex : Nat) (d : Device) : Device :=
  if (d.txn seg).any fun t => byteIndex < t.sent then
    let taken := d.updSeg seg fun g => { g with owner := .taken, freeCount := false }
    match (d.seg seg).work with
    | .conversation h ctx =>
      afterArbLost seg h ctx (addressEvent (d.conv h).target (if byteIndex = 0 then none else some true) taken)
    | .sweep _ => endSweep seg (taken.updSeg seg fun g => { g with sweep := .pending })
    | .nothing => d
  else d

/-- ARB_LOST (04 R72). -/
def execArbLost (seg : SegId) (byteIndex : Nat) (s : State) : Answer := s.run (losesArbitration seg byteIndex)

/-- The retry gap expires: the unit is carried out again from WAIT_FREE (05 R88). A return to IDLE makes a selection (03 R47). -/
def retryGapExpires (seg : SegId) (d : Device) : Device :=
  match (d.seg seg).work with
  | .conversation h ctx =>
    match ctx.phase with
    | .retryGap _ => makeSelection seg (enterWaitFree seg h ctx d)
    | _ => d
  | .nothing => d
  | .sweep _ => d

/-- RETRY_GAP_EXPIRY (05 R88). -/
def execRetryGapExpiry (seg : SegId) (s : State) : Answer := s.run (retryGapExpires seg)

/-- A WAIT_UNTIL interval expires: the next attempt begins as a new unit (05 R95). A return to IDLE makes a selection (03 R47). -/
def intervalExpires (seg : SegId) (d : Device) : Device :=
  match (d.seg seg).work with
  | .conversation h ctx =>
    match ctx.phase with
    | .interval _ => makeSelection seg (enterWaitFree seg h ctx.beginUnit d)
    | _ => d
  | .nothing => d
  | .sweep _ => d

/-- INTERVAL_EXPIRY (05 R95). -/
def execIntervalExpiry (seg : SegId) (s : State) : Answer := s.run (intervalExpires seg)

/-- A PAUSE expires and is completed (05 R97). A return to IDLE makes a selection (03 R47). -/
def pauseExpires (seg : SegId) (d : Device) : Device :=
  match (d.seg seg).work with
  | .conversation h ctx =>
    match ctx.phase with
    | .pause _ => makeSelection seg (enterStep seg h (ctx.complete []) d)
    | _ => d
  | .nothing => d
  | .sweep _ => d

/-- PAUSE_EXPIRY (05 R97). -/
def execPauseExpiry (seg : SegId) (s : State) : Answer := s.run (pauseExpires seg)

/-! ## Stalls, faults, recovery -/

/-- SCL is held low beyond the stall limit at a position of the engine's transaction (04 R74). -/
def stalls (seg : SegId) (pos : BusPos) (d : Device) : Device :=
  if d.canBeAt seg pos then wireFault seg .stallTimeout pos d else d

/-- CLOCK_STALL (04 R74). -/
def execClockStall (seg : SegId) (pos : BusPos) (s : State) : Answer := s.run (stalls seg pos)

/-- A bus fault is found at one of its three places (04 R75). -/
def faults (seg : SegId) (site : FaultSite) (d : Device) : Device :=
  match site with
  | .lineWatch => if (d.seg seg).lineWatch then lineWatchFires seg d else d
  | .atStart => if (d.seg seg).work.pos = some .start then wireFault seg .busFault .start d else d
  | .atStop i acked => if d.canBeAt seg (.stop i acked) then wireFault seg .busFault (.stop i acked) d else d

/-- BUS_FAULT (04 R75). -/
def execBusFault (seg : SegId) (site : FaultSite) (s : State) : Answer := s.run (faults seg site)

/-- A reception is cut by a stall; a line watch that runs fires after the cut (04 R76, 06 R110). -/
def receptionStalls (seg : SegId) (d : Device) : Device :=
  if (d.seg seg).reception.inProgress then
    let cut := cutReception seg d
    if (d.seg seg).lineWatch then lineWatchFires seg cut else cut
  else d

/-- RECEPTION_STALL (04 R76). -/
def execReceptionStall (seg : SegId) (s : State) : Answer := s.run (receptionStalls seg)

/-- A recovery succeeds: IDLE, RECOVERED if it was entered from BLOCKED, and ALR low taken as a fall (04 R78, 06 R118). Its STOP starts the
free-time count, and the bus becomes free after the free time, so until then it is taken, whatever the value was before (04 R63, R77; log 19).
The return to IDLE therefore makes no selection here, though R47 names it: the selection follows once the bus is free (04 R78). -/
def recovers (seg : SegId) (pulses : Nat) (d : Device) : Device :=
  let d := if (d.seg seg).fromBlocked then post (.segmentState seg .recovered) d else d
  (placeStop seg d).updSeg seg fun g =>
    let g := { g with state := .idle, fromBlocked := false, pulses := pulses }
    if g.alrLow then g.alrFell else g

/-- The recovery sequence ends with both lines high (04 R77, R78). -/
def recoverySucceeds (seg : SegId) (lines : RecoveryLines) (d : Device) : Device :=
  if (d.seg seg).state = .recovering then
    match recoveryEnds lines with
    | some (n, true) => recovers seg n d
    | _ => d
  else d

/-- RECOVERY_SUCCESS (04 R78). -/
def execRecoverySuccess (seg : SegId) (lines : RecoveryLines) (s : State) : Answer := s.run (recoverySucceeds seg lines)

/-- A recovery fails: BLOCKED, the fault record, and the report (04 R78, R82). -/
def blocks (seg : SegId) (pulses : Nat) (d : Device) : Device :=
  post (.segmentState seg .blocked)
    ((enterFault seg .recoveryFailed none none d).updSeg seg fun g =>
      { g with state := .blocked, fromBlocked := false, pulses := pulses })

/-- The recovery sequence fails (04 R77, R78). -/
def recoveryFails (seg : SegId) (lines : RecoveryLines) (d : Device) : Device :=
  if (d.seg seg).state = .recovering then
    match recoveryEnds lines with
    | some (n, false) => blocks seg n d
    | _ => d
  else d

/-- RECOVERY_FAILURE (04 R78). -/
def execRecoveryFailure (seg : SegId) (lines : RecoveryLines) (s : State) : Answer := s.run (recoveryFails seg lines)

/-! ## The bus as the engine sees it (04 R63) -/

/-- The engine's own START stands on the lines: its transaction passes to ADDRESS (04 R64; log 20). -/
def Work.startSeen : Work → Work
  | .nothing => .nothing
  | .sweep p => .sweep (if p = .start then .address else p)
  | .conversation h ctx =>
    match ctx.phase with
    | .transaction readHalf pec .start => .conversation h { ctx with phase := .transaction readHalf pec .address }
    | _ => .conversation h ctx

/-- A START is seen: the bus is taken, a free-time count is abandoned, a reception ends (04 R63, 06 R109). -/
def startSeen (seg : SegId) (d : Device) : Device :=
  if (d.seg seg).config.enabled then
    (endReception seg d).updSeg seg fun g => { g with owner := .taken, freeCount := false, work := g.work.startSeen }
  else d

/-- BUS_START_SEEN (04 R63). -/
def execBusStartSeen (seg : SegId) (s : State) : Answer := s.run (startSeen seg)

/-- A STOP is seen: the free-time count starts, a reception ends (04 R63, 06 R109). -/
def stopSeen (seg : SegId) (d : Device) : Device :=
  if (d.seg seg).config.enabled then (endReception seg d).updSeg seg fun g => { g with freeCount := true } else d

/-- BUS_STOP_SEEN (04 R63). -/
def execBusStopSeen (seg : SegId) (s : State) : Answer := s.run (stopSeen seg)

/-- The bus becomes free: an engine in WAIT_FREE starts, and for an IDLE one a selection is made (04 R63, R64; 03 R47). -/
def becomesFree (seg : SegId) (d : Device) : Device :=
  makeSelection seg (startWaiting seg (d.updSeg seg fun g => { g with owner := .free, freeCount := false }))

/-- The free time after a STOP elapses (04 R63). -/
def freeTimeExpires (seg : SegId) (d : Device) : Device := if (d.seg seg).freeCount then becomesFree seg d else d

/-- BUS_FREE_TIME_EXPIRY (04 R63). -/
def execBusFreeTimeExpiry (seg : SegId) (s : State) : Answer := s.run (freeTimeExpires seg)

/-- Both lines have been high for 100 microseconds: a reception is cut, the bus is free (04 R63, 06 R110; log 24). -/
def idleTimeout (seg : SegId) (d : Device) : Device :=
  if (d.seg seg).config.enabled then becomesFree seg (cutReception seg d) else d

/-- BUS_IDLE_TIMEOUT (04 R63). -/
def execBusIdleTimeout (seg : SegId) (s : State) : Answer := s.run (idleTimeout seg)

/-! ## The target receiver and ALR (06) -/

/-- An address byte appears on the wire that the engine does not drive: an active receiver judges it (06 R106). A write record that still
stands ends first, at the repeated START before the byte (06 R109; log 18). What the START before it did to the bus is the business of
BUS_START_SEEN: this row leaves ownership and free-time count as they are, with or without that row before it (the model's choice, log 36). -/
def addressSeen (seg : SegId) (b : Byte) (d : Device) : Device :=
  if (d.seg seg).receiverActive && !(d.seg seg).work.onWire then judgeAddress seg b (endReception seg d) else d

/-- ADDRESS_BYTE_JUDGED (06 R106). -/
def execAddressByteJudged (seg : SegId) (b : Byte) (s : State) : Answer := s.run (addressSeen seg b)

/-- RECEIVED_DATA_BYTE (06 R108). -/
def execReceivedDataByte (seg : SegId) (b : Byte) (s : State) : Answer := s.run (takeDataByte seg b)

/-- ALR falls: the level is low, and an engine that is not OFF takes the fall (06 R118; log 25). -/
def alrFalls (seg : SegId) (d : Device) : Device :=
  mayArm seg (fun g =>
    let g := { g with alrLow := true }
    if g.state = .off then g else g.alrFell) d

/-- ALR_FALL (06 R118). -/
def execAlrFall (seg : SegId) (s : State) : Answer := s.run (alrFalls seg)

/-- ALR rises: the level is high, and an engine that is not OFF ends a holdoff or STUCK (06 R118). -/
def alrRises (seg : SegId) (d : Device) : Device :=
  d.updSeg seg fun g =>
    let g := { g with alrLow := false }
    if g.state ≠ .off ∧ (g.sweep = .holdoff ∨ g.sweep = .stuck) then g.disarm else g

/-- ALR_RISE (06 R118). -/
def execAlrRise (seg : SegId) (s : State) : Answer := s.run (alrRises seg)

/-- The 10 ms holdoff expires: PENDING if ALR is low, otherwise IDLE (06 R121). -/
def holdoffExpires (seg : SegId) (d : Device) : Device :=
  mayArm seg (fun g => if g.sweep = .holdoff then (if g.alrLow then { g with sweep := .pending } else g.disarm) else g) d

/-- SWEEP_HOLDOFF_EXPIRY (06 R121). -/
def execSweepHoldoffExpiry (seg : SegId) (s : State) : Answer := s.run (holdoffExpires seg)

/-! ## The frame timer -/

/-- FRAME_BOUNDARY: the frame timer expires (07 R130); then come the selections that its joins lead to (03 R47; log 35). -/
def execFrameBoundary (s : State) : Answer :=
  s.run fun d => if d.schedule.running && d.schedule.timer.isSome then selectAfterJoins d (frameBoundary d) else d

end Sys2Proof.Machine
end

