-- ==== Sys2Proof/Machine/PortCommands.lean ====
section
/-! DEFINITION. The Message Port's own events (09, sections 9.1 to 9.4) and the device resets (08 R156; 09 R173 to R176). -/

namespace Sys2Proof.Machine

/-- REJECT_FRAME: a frame that fails at link level is clocked in (09 R162). -/
def execRejectFrame (kind tag len : Byte) (body : List Byte) (check0 check1 : Byte) (s : State) : Answer :=
  s.run (clockRest (rawFrameBytes kind tag len body check0 check1))

/-- STRAY_BYTE: bytes of 0x00, then the byte (09 R161). -/
def execStrayByte (zeros : Nat) (b : Byte) (s : State) : Answer := s.run (clockBytes (List.replicate zeros 0#8 ++ [b]))

/-- INBOUND_FRAME_BEGINS: bytes of 0x00, then the marker (09 R161). -/
def execInboundFrameBegins (zeros : Nat) (s : State) : Answer := s.run (clockBytes (List.replicate zeros 0#8 ++ [marker]))

/-- TRANSFER_START: MSEL falls (09 R159, R166). -/
def execTransferStart (s : State) : Answer := s.run startTransfer

/-- TRANSFER_END: the last bytes of the transfer are clocked, then MSEL rises (09 R163, R167). -/
def execTransferEnd (mdi : List Byte) (s : State) : Answer := s.run fun d => endTransfer (clockBytes mdi d)

/-- FRAME_DELIVERY: the bytes up to the last of the chosen frame are clocked (09 R167; log 3). -/
def execFrameDelivery (mdi : List Byte) (s : State) : Answer := s.run fun d => clockBytes (restOfOutbound mdi d) d

/-- The fallback timer expires (09 R174). -/
def restartFallbackExpires (d : Device) : Device :=
  if d.port.fallback.isSome then deviceReset (.ready .request) d else d

/-- RESTART_FALLBACK_EXPIRY (09 R174). -/
def execRestartFallbackExpiry (s : State) : Answer := s.run restartFallbackExpires

/-- RSTN falls: the device is in reset; READY does not stand in the list before RSTN rises (09 R169, R175; log 16). -/
def assertReset (d : Device) : Device := if d.rstnLow then d else { deviceReset .empty d with rstnLow := true }

/-- RSTN_ASSERT (09 R175). -/
def execRstnAssert (s : State) : Answer := s.run assertReset

/-- RSTN rises: the reset completes with reason PIN (08 R156, 09 R175). -/
def releaseReset (d : Device) : Device := if d.rstnLow then { deviceReset (.ready .pin) d with rstnLow := false } else d

/-- RSTN_RELEASE (09 R175). -/
def execRstnRelease (s : State) : Answer := s.run releaseReset

/-- POWER_ON_RESET: the reset completes with reason POWER (08 R156; log 15). -/
def execPowerOnReset (s : State) : Answer := s.run (deviceReset (.ready .power))

end Sys2Proof.Machine
end

