-- ==== Sys2Proof/Machine/Dispatch.lean ====
section
/-! DEFINITION. What each command does: one arm per constructor of Instr. -/

namespace Sys2Proof.Machine

def exec (i : Instr) (s : State) : Host.Outcome State Fault Refusal :=
  match i with
  | .ping tag body => Sys2Proof.Machine.execPing tag body s
  | .restart tag body => Sys2Proof.Machine.execRestart tag body s
  | .linkStatus tag body => Sys2Proof.Machine.execLinkStatus tag body s
  | .setAttention tag body => Sys2Proof.Machine.execSetAttention tag body s
  | .setReportMask tag body => Sys2Proof.Machine.execSetReportMask tag body s
  | .addTarget tag body => Sys2Proof.Machine.execAddTarget tag body s
  | .modifyTarget tag body => Sys2Proof.Machine.execModifyTarget tag body s
  | .withdrawTargetNormal tag body => Sys2Proof.Machine.execWithdrawTargetNormal tag body s
  | .withdrawTargetForced tag body => Sys2Proof.Machine.execWithdrawTargetForced tag body s
  | .readTarget tag body => Sys2Proof.Machine.execReadTarget tag body s
  | .listTargets tag body => Sys2Proof.Machine.execListTargets tag body s
  | .configureSegment tag body => Sys2Proof.Machine.execConfigureSegment tag body s
  | .segmentStatus wire tag body => Sys2Proof.Machine.execSegmentStatus wire tag body s
  | .holdSegment tag body => Sys2Proof.Machine.execHoldSegment tag body s
  | .releaseSegment tag body => Sys2Proof.Machine.execReleaseSegment tag body s
  | .resetSegment wire tag body => Sys2Proof.Machine.execResetSegment wire tag body s
  | .flushSegment tag body => Sys2Proof.Machine.execFlushSegment tag body s
  | .readFault tag body => Sys2Proof.Machine.execReadFault tag body s
  | .openConversation tag body => Sys2Proof.Machine.execOpenConversation tag body s
  | .appendSteps tag body => Sys2Proof.Machine.execAppendSteps tag body s
  | .submitConversation tag body => Sys2Proof.Machine.execSubmitConversation tag body s
  | .runConversation tag body => Sys2Proof.Machine.execRunConversation tag body s
  | .cancelConversation tag body => Sys2Proof.Machine.execCancelConversation tag body s
  | .conversationStatus tag body => Sys2Proof.Machine.execConversationStatus tag body s
  | .fetchResult tag body => Sys2Proof.Machine.execFetchResult tag body s
  | .setFrame tag body => Sys2Proof.Machine.execSetFrame tag body s
  | .startSchedule tag body => Sys2Proof.Machine.execStartSchedule tag body s
  | .stopSchedule tag body => Sys2Proof.Machine.execStopSchedule tag body s
  | .putPoll tag body => Sys2Proof.Machine.execPutPoll tag body s
  | .clearPoll tag body => Sys2Proof.Machine.execClearPoll tag body s
  | .clearShadow tag body => Sys2Proof.Machine.execClearShadow tag body s
  | .copyActive tag body => Sys2Proof.Machine.execCopyActive tag body s
  | .commitBank tag body => Sys2Proof.Machine.execCommitBank tag body s
  | .readPoll tag body => Sys2Proof.Machine.execReadPoll tag body s
  | .fetchInbox tag body => Sys2Proof.Machine.execFetchInbox tag body s
  | .inboxStatus tag body => Sys2Proof.Machine.execInboxStatus tag body s
  | .rejectFrame kind tag len body check0 check1 => Sys2Proof.Machine.execRejectFrame kind tag len body check0 check1 s
  | .strayByte zeros b => Sys2Proof.Machine.execStrayByte zeros b s
  | .transferStart => Sys2Proof.Machine.execTransferStart s
  | .transferEnd mdi => Sys2Proof.Machine.execTransferEnd mdi s
  | .frameDelivery mdi => Sys2Proof.Machine.execFrameDelivery mdi s
  | .restartFallbackExpiry => Sys2Proof.Machine.execRestartFallbackExpiry s
  | .rstnAssert => Sys2Proof.Machine.execRstnAssert s
  | .rstnRelease => Sys2Proof.Machine.execRstnRelease s
  | .powerOnReset => Sys2Proof.Machine.execPowerOnReset s
  | .assemblyExpiry slot => Sys2Proof.Machine.execAssemblyExpiry slot s
  | .deadlineExpiry slot => Sys2Proof.Machine.execDeadlineExpiry slot s
  | .conversationStart seg => Sys2Proof.Machine.execConversationStart seg s
  | .sweepStart seg => Sys2Proof.Machine.execSweepStart seg s
  | .transactionEnd seg nakAt received => Sys2Proof.Machine.execTransactionEnd seg nakAt received s
  | .arbLost seg byteIndex => Sys2Proof.Machine.execArbLost seg byteIndex s
  | .retryGapExpiry seg => Sys2Proof.Machine.execRetryGapExpiry seg s
  | .intervalExpiry seg => Sys2Proof.Machine.execIntervalExpiry seg s
  | .pauseExpiry seg => Sys2Proof.Machine.execPauseExpiry seg s
  | .clockStall seg pos => Sys2Proof.Machine.execClockStall seg pos s
  | .busFault seg site => Sys2Proof.Machine.execBusFault seg site s
  | .receptionStall seg => Sys2Proof.Machine.execReceptionStall seg s
  | .recoverySuccess seg lines => Sys2Proof.Machine.execRecoverySuccess seg lines s
  | .recoveryFailure seg lines => Sys2Proof.Machine.execRecoveryFailure seg lines s
  | .busStartSeen seg => Sys2Proof.Machine.execBusStartSeen seg s
  | .busStopSeen seg => Sys2Proof.Machine.execBusStopSeen seg s
  | .busFreeTimeExpiry seg => Sys2Proof.Machine.execBusFreeTimeExpiry seg s
  | .busIdleTimeout seg => Sys2Proof.Machine.execBusIdleTimeout seg s
  | .addressByteJudged seg b => Sys2Proof.Machine.execAddressByteJudged seg b s
  | .receivedDataByte seg b => Sys2Proof.Machine.execReceivedDataByte seg b s
  | .alrFall seg => Sys2Proof.Machine.execAlrFall seg s
  | .alrRise seg => Sys2Proof.Machine.execAlrRise seg s
  | .sweepHoldoffExpiry seg => Sys2Proof.Machine.execSweepHoldoffExpiry seg s
  | .frameBoundary => Sys2Proof.Machine.execFrameBoundary s
  | .inboundFrameBegins zeros => Sys2Proof.Machine.execInboundFrameBegins zeros s

end Sys2Proof.Machine
end

