-- ==== Sys2Proof/Safety.lean ====
section
/-! DEFINITION. What counts as a sound state: the laws the manual states of its queues, tables and timers. -/

namespace Sys2Proof.Machine

/-- The reply queue never holds more than 4 frames (09 R165). -/
def ReplyLaw (d : Device) : Prop := d.port.replies.length ≤ Config.replyPlaces

/-- The numbers of the reports from a point of the list on run consecutively and end just before the next number (08 R148). -/
def numbered (next : Half) : List Report → Prop
  | [] => True
  | r :: rest => r.seq + BitVec.ofNat 16 (rest.length + 1) = next ∧ numbered next rest

/-- The report list holds at most 32 reports; a marker is its last report, so it stands once; 32 reports include a marker; a marker's
count is 1 to 65535; the numbers in the list run consecutively up to the next number (08 R148, R150, R151). -/
structure ReportLaw (q : ReportQueue) : Prop where
  bounded : q.list.length ≤ Config.reportPlaces
  markerLast : ∀ r ∈ q.list.dropLast, r.body.lostCount = none
  fullHasMarker : q.list.length = Config.reportPlaces → q.marker.isSome
  counted : ∀ r ∈ q.list, ∀ n, r.body.lostCount = some n → 1 ≤ n ∧ n ≤ 65535
  consecutive : numbered q.next q.list

/-- No two entries that are not VACANT hold the same segment and address, and none holds the nonzero own address of its segment
(01 R3). -/
structure DirectoryLaw (d : Device) : Prop where
  distinct : ∀ i j, (d.entry i).presence ≠ .vacant → (d.entry j).presence ≠ .vacant →
    (d.entry i).segment = (d.entry j).segment → (d.entry i).address = (d.entry j).address → i = j
  notOwn : ∀ i, (d.entry i).presence ≠ .vacant → (d.seg (d.entry i).segment).config.ownAddress ≠ 0#7 →
    (d.entry i).address ≠ (d.seg (d.entry i).segment).config.ownAddress

/-- A receiver that takes a message (06 R105). -/
def Reception.writes : Reception → Bool
  | .write .. => true
  | .nothing => false
  | .directRead _ => false
  | .passive => false

/-- Two inbox entries hold the same message (06 R113). -/
def InboxEntry.same (x y : InboxEntry) : Prop := x.segment = y.segment ∧ x.kind = y.kind ∧ x.bytes = y.bytes

/-- The number of receptions in a write role (06 R113). -/
def writeReceptions (d : Device) : Nat := (List.finRange 4).countP fun i => (d.seg i).reception.writes

/-- The inbox's laws: at most 16 places are stored or reserved, the reserved ones are the receptions in a write role, and no two stored
entries hold the same message; an entry has 1 to 32 bytes and a repeat count of 1 to 255; the refusal count is at most 65535 (06 R113). A
reception has taken at most 32 bytes (06 R105). -/
structure InboxLaw (d : Device) : Prop where
  places : d.inbox.entries.length + d.inbox.reserved ≤ Config.inboxPlaces
  reserved : d.inbox.reserved = writeReceptions d
  distinct : d.inbox.entries.Pairwise fun x y => ¬ x.same y
  bytes : ∀ e ∈ d.inbox.entries, 1 ≤ e.bytes.length ∧ e.bytes.length ≤ Config.maxMessage
  repeats : ∀ e ∈ d.inbox.entries, 1 ≤ e.repeats ∧ e.repeats ≤ 255
  refusals : d.inbox.refusals ≤ 65535
  receiving : ∀ seg kind bytes truncated, (d.seg seg).reception = .write kind bytes truncated → bytes.length ≤ Config.maxMessage

/-- The frame timer runs exactly while the schedule is RUNNING, a swap is pending only then, and the frame length is 1 to 100 ms
(07 R124, R127, R128, R136). -/
structure ScheduleLaw (s : Schedule) : Prop where
  timer : s.timer.isSome = s.running
  pending : s.swapPending = true → s.running = true
  length : 1 ≤ s.frameLength ∧ s.frameLength ≤ 100

/-- A conversation that holds a reference on its directory target: ASSEMBLING, QUEUED or RUNNING (01 R8). -/
def Slot.live (x : Slot) : Bool :=
  match x.state with
  | .assembling => true
  | .queued => true
  | .running => true
  | .free => false
  | .done => false

/-- The used entries of a bank that name a target. -/
def namings (d : Device) (bank : Bank) (i : TargetId) : Nat :=
  (List.finRange 48).countP fun k => (d.poll bank k).any fun e => e.config.target == i

/-- What names a target: the live conversations, and the poll entries of both banks (01 R8). -/
def references (d : Device) (i : TargetId) : Nat :=
  ((List.finRange 32).countP fun k => (d.slot k).live && decide ((d.slot k).conv.target = .directory i)) +
    (namings d .a i + namings d .b i)

/-- The handles that wait under a class. -/
def Segment.waiting (c : Class) (g : Segment) : List Handle :=
  match c with
  | .urgent => g.urgent
  | .normal => g.normal

/-- The laws of references, queues, slots and engines. An entry's reference count is what names it, none of a VACANT entry and some of a
WITHDRAWING one (01 R8, R17). A handle stands in a list exactly once when it is the handle of a conversation QUEUED on that segment under
that class, and nowhere otherwise (03 R45). A conversation is RUNNING exactly while its segment's engine runs it, and an engine runs
something exactly while it is ACTIVE, so a segment that is OFF, RECOVERING or BLOCKED has no conversation RUNNING (03 R50, 04 R58). A ready
engine has nothing to offer: every event of R47 has made its selection (03 R47). The host holds at most 24 slots (02 R23), the urgent-streak
count is at most 4 (03 R49). The idle timer runs in ASSEMBLING alone (02 R30), a stop request stands in RUNNING alone (02 R35), and a
QUEUED conversation has a step (02 R31). -/
structure WorkLaw (d : Device) : Prop where
  counted : ∀ i, (d.entry i).refs = references d i
  vacant : ∀ i, (d.entry i).presence = .vacant → (d.entry i).refs = 0
  withdrawing : ∀ i, (d.entry i).presence = .withdrawing → (d.entry i).refs ≠ 0
  queued : ∀ seg c h, ((d.seg seg).waiting c).count h =
    if h = d.handle h.slot ∧ (d.slot h.slot).state = .queued ∧ targetSegment d (d.slot h.slot).conv.target = seg ∧
        (d.slot h.slot).conv.cls = c then 1 else 0
  running : ∀ k, (d.slot k).state = .running →
    ∃ ctx, (d.seg (targetSegment d (d.slot k).conv.target)).work = .conversation (d.handle k) ctx
  engaged : ∀ seg h ctx, (d.seg seg).work = .conversation h ctx →
    h = d.handle h.slot ∧ (d.slot h.slot).state = .running ∧ targetSegment d (d.slot h.slot).conv.target = seg
  active : ∀ seg, (d.seg seg).state = .active ↔ (d.seg seg).work ≠ .nothing
  served : ∀ seg, (d.seg seg).ready = true → (d.seg seg).offers = false
  hostHeld : hostHeld d ≤ Config.hostSlots
  streak : ∀ seg, (d.seg seg).streak ≤ Config.streakLimit
  idleTimer : ∀ k, (d.slot k).conv.assemblyTimer.isSome → (d.slot k).state = .assembling
  stops : ∀ k, (d.slot k).conv.stop.isSome → (d.slot k).state = .running
  steps : ∀ k, (d.slot k).state = .queued → (d.slot k).conv.steps ≠ []

/-- A device in which every one of the laws holds. -/
structure Sound (d : Device) : Prop where
  replies : ReplyLaw d
  reports : ReportLaw d.reports
  directory : DirectoryLaw d
  inbox : InboxLaw d
  schedule : ScheduleLaw d.schedule
  work : WorkLaw d

/-- The machine can come from one state to another by carrying out its queue, the sender adding commands as it likes. -/
inductive Reaches : State → State → Prop
  | start (s : State) : Reaches s s
  | send (s t : State) (l : List Instr) : Reaches s t → Reaches s { t with pending := t.pending ++ l }
  | step (s t u : State) : Reaches s t → step t = .next u → Reaches s u

/-! ## A request as the statements speak of it -/

/-- The outbound choice after `n` more bytes, if the chosen frame is not delivered within them (09 R166, R167). -/
def Outbound.after (n : Nat) : Outbound → Option Outbound
  | .nothing => some .nothing
  | .delivered => some .delivered
  | .chosen isReport f k => if k + n < f.length then some (.chosen isReport f (k + n)) else none

/-- The device whose port has taken a whole inbound frame and has sent the outbound frame as far as `o` says. -/
def atDone (o : Outbound) (d : Device) : Device := d.updPort fun p => { p with parser := .done, outbound := o }

/-- In a transfer, the parser in HUNT, and `n` more bytes do not deliver the outbound frame, which then stands at `o`. -/
def listens (d : Device) (n : Nat) (o : Outbound) : Bool :=
  d.port.transfer == .active && d.port.parser == .hunt && d.port.outbound.after n == some o

/-- A request of `n` body bytes that is clocked in now is handed to its owner, if its length is allowed (09 R164, case 4). -/
def accepts (d : Device) (n : Nat) (o : Outbound) : Bool :=
  listens d (6 + n) o && decide (d.port.replies.length < 4) && !d.port.restartPending

/-- The device as the owner of an accepted request finds it: the frame is at DONE and the request is counted (09 R164, R172). -/
def found (o : Outbound) (d : Device) : Device := countAccepted (atDone o d)

/-- The command answers the next state in which the device is `d` and a reply stands at the tail of its reply queue. -/
def replyTo (s : State) (kind tag : Byte) (fields : List Byte) (d : Device) : Answer :=
  .next { s with dev := pushReply ⟨kind, tag, fields⟩ d }

/-- The request a command is: its kind, tag and body. -/
def requestOf : Instr → Option (RequestKind × Byte × List Byte)
  | .ping t b => some (.ping, t, b)
  | .restart t b => some (.restart, t, b)
  | .linkStatus t b => some (.linkStatus, t, b)
  | .setAttention t b => some (.setAttention, t, b)
  | .setReportMask t b => some (.setReportMask, t, b)
  | .addTarget t b => some (.addTarget, t, b)
  | .modifyTarget t b => some (.modifyTarget, t, b)
  | .withdrawTargetNormal t b => some (.withdrawTarget, t, b)
  | .withdrawTargetForced t b => some (.withdrawTarget, t, b)
  | .readTarget t b => some (.readTarget, t, b)
  | .listTargets t b => some (.listTargets, t, b)
  | .configureSegment t b => some (.configureSegment, t, b)
  | .segmentStatus _ t b => some (.segmentStatus, t, b)
  | .holdSegment t b => some (.holdSegment, t, b)
  | .releaseSegment t b => some (.releaseSegment, t, b)
  | .resetSegment _ t b => some (.resetSegment, t, b)
  | .flushSegment t b => some (.flushSegment, t, b)
  | .readFault t b => some (.readFault, t, b)
  | .openConversation t b => some (.openConversation, t, b)
  | .appendSteps t b => some (.appendSteps, t, b)
  | .submitConversation t b => some (.submitConversation, t, b)
  | .runConversation t b => some (.runConversation, t, b)
  | .cancelConversation t b => some (.cancelConversation, t, b)
  | .conversationStatus t b => some (.conversationStatus, t, b)
  | .fetchResult t b => some (.fetchResult, t, b)
  | .setFrame t b => some (.setFrame, t, b)
  | .startSchedule t b => some (.startSchedule, t, b)
  | .stopSchedule t b => some (.stopSchedule, t, b)
  | .putPoll t b => some (.putPoll, t, b)
  | .clearPoll t b => some (.clearPoll, t, b)
  | .clearShadow t b => some (.clearShadow, t, b)
  | .copyActive t b => some (.copyActive, t, b)
  | .commitBank t b => some (.commitBank, t, b)
  | .readPoll t b => some (.readPoll, t, b)
  | .fetchInbox t b => some (.fetchInbox, t, b)
  | .inboxStatus t b => some (.inboxStatus, t, b)
  | _ => none

/-- The note of the wire that a command brings with it (log 7). -/
def noteOf : Instr → Option WireNote
  | .segmentStatus w _ _ => w
  | .resetSegment w _ _ => w
  | _ => none

/-! ## Request bodies as the layouts give them (10 R179 to R181) -/

/-- A target field; the two bytes that a directory target leaves unread are given (10 R178, R180). -/
def targetBytes (x y : Byte) : Target → List Byte
  | .directory i => [0#8, byte i.val, x, y]
  | .raw seg a c => [1#8, a.setWidth 8, byte seg.val, c.code]

/-- The code of a report mode (10 R183). -/
def ReportMode.code : ReportMode → Byte
  | .notify => 0#8
  | .quiet => 1#8
  | .fire => 2#8

/-- Retry settings in range (02 R24). -/
def RetrySettings.inRange (r : RetrySettings) : Bool := r.retries ≤ 7 && within 1 255 r.gap && r.budget ≤ 15

/-- The header of OPEN_CONVERSATION: a deadline of 0 is an absent one; the retry settings are present when the flag is not 0 (10 R181). -/
def headerBytes (x y : Byte) (t : Target) (c : Class) (m : ReportMode) (deadline : Half) : Option (Byte × RetrySettings) → List Byte
  | none => targetBytes x y t ++ [c.code, m.code] ++ le16 deadline ++ [0#8]
  | some (flag, r) =>
    targetBytes x y t ++ [c.code, m.code] ++ le16 deadline ++ [flag, byte r.retries, byte r.gap, byte r.budget]

/-- The record that a header asks for (02 R24, R28). -/
def headerConv (t : Target) (c : Class) (m : ReportMode) (deadline : Half) (retry : Option (Byte × RetrySettings)) (steps : List Step)
    (assembly : Option Nat) : Conv where
  origin := .host
  target := t
  cls := c
  mode := some m
  retry := (retry.map Prod.snd).getD ⟨2, 5, 3⟩
  deadline := if deadline = 0#16 then none else some deadline.toNat
  steps := steps
  stop := none
  result := none
  assemblyTimer := assembly
  deadlineTimer := none

/-- The flag byte of a step record (10 R179). -/
def stepFlags (join tolerate command read : Bool) : Byte :=
  byte ((if join then 1 else 0) + (if tolerate then 2 else 0) + (if command then 4 else 0) + (if read then 8 else 0))

/-- A record: kind, flags, the number of field bytes, the field bytes (10 R179). -/
def recordBytes (kind flags : Byte) (fields : List Byte) : List Byte := kind :: flags :: byte fields.length :: fields

/-- The record of a step (10 R179). -/
def Step.bytes : Step → List Byte
  | .quick dir join => recordBytes 0x01#8 (stepFlags join false false dir) []
  | .write command bytes join tolerate =>
    recordBytes 0x02#8 (stepFlags join tolerate command.isSome false) (command.toList ++ bytes)
  | .read command length join => recordBytes 0x03#8 (stepFlags join false command.isSome false) (command.toList ++ [byte length])
  | .readBlock command join => recordBytes 0x04#8 (stepFlags join false true false) [command]
  | .waitUntil command length mask want interval limit =>
    recordBytes 0x05#8 (stepFlags false false true false) ([command, byte length] ++ mask ++ want ++ [byte interval, byte limit])
  | .pause n => recordBytes 0x06#8 0#8 [byte n]

/-- The fields of a step in range (02 R25). -/
def Step.inRange : Step → Bool
  | .quick .. => true
  | .write command bytes _ _ => bytes.length ≤ 32 && (command.isSome || !bytes.isEmpty)
  | .read _ n _ => within 1 32 n
  | .readBlock .. => true
  | .waitUntil _ n mask want interval limit =>
    within 1 4 n && mask.length == n && want.length == n && within 1 255 interval && within 1 255 limit
  | .pause n => within 1 255 n

/-- A step that may follow a joined one follows each joined one (02 R26). -/
def joinsFollowed (l : List Step) : Prop :=
  ∀ k a b, l[k]? = some a → l[k + 1]? = some b → a.joined = true → b.mayFollowJoin = true

end Sys2Proof.Machine
end

