-- ==== Sys2Proof/Certificates/Slice0/Obligations.lean ====
section
/-! DEFINITION. The statements about the MB-6. A request is stated as the port takes it: `accepts` says when, `found` is the device its owner
finds, `replyTo` the next state with the reply at the tail of the reply queue. That a request row clocks in its whole frame is the model's
reading (log 2); `flagByte true` is the free nonzero byte of a set flag (log 11), and unused bytes are sent as 0 (log 12). -/

open Sys2Proof Sys2Proof.Machine

/-! ## The machine -/

/-- A step takes the command at the front of the queue; on an empty queue the block idles (the model's choice, log 1). -/
def Obligations.StepRunsTheFrontCommand : Prop :=
  (∀ (c : Instr) (rest : List Instr) (d : Device), step ⟨d, c :: rest⟩ = exec c ⟨d, rest⟩) ∧
  ∀ d : Device, step ⟨d, []⟩ = .next ⟨d, []⟩

/-- Every command, with any operands in any state, answers a next state, and leaves the commands that wait as they are. That an event which
cannot occur in a state answers next there too is the model's choice (log 6). -/
def Obligations.EveryCommandAnswersAndKeepsTheQueue : Prop :=
  ∀ (c : Instr) (s : State), ∃ d : Device, exec c s = .next ⟨d, s.pending⟩

/-! ## The Message Port (09) -/

/-- R164: reply queue full, restart pending, body length, execution, in this order, for every request row. That the note of the wire which a
row carries is taken even where the port turns the request away is the model's choice (logs 7 and 32). Not stated here: a request within whose bytes
the outbound frame is delivered, and one that finds the parser in another state than HUNT. -/
def Obligations.RequestIsHandledInOrder : Prop :=
  ∀ (c : Instr) (k : RequestKind) (tag : Byte) (body : List Byte) (s : State) (o : Outbound),
    requestOf c = some (k, tag, body) → body.length ≤ 60 → listens s.dev (6 + body.length) o = true →
    let d := atDone o (takeNote (noteOf c) s.dev)
    (4 ≤ s.dev.port.replies.length → exec c s = .next { s with dev := countUnanswered d }) ∧
    (s.dev.port.replies.length < 4 → s.dev.port.restartPending = true →
      exec c s = replyTo s (k.code + 0x80#8) tag [0x15#8] (countAccepted d)) ∧
    (s.dev.port.replies.length < 4 → s.dev.port.restartPending = false → lengthAllowed k body = false →
      exec c s = replyTo s (k.code + 0x80#8) tag [0x03#8] (countAccepted d)) ∧
    (s.dev.port.replies.length < 4 → s.dev.port.restartPending = false → lengthAllowed k body = true →
      exec c s = replyTo s (k.code + 0x80#8) tag
        ((owner k body (countAccepted d)).1.status.code :: (owner k body (countAccepted d)).1.fields)
        (owner k body (countAccepted d)).2)

/-- RESTART sets the flag and starts the timer at 250 ms (R173); the delivery of its reply, or the expiry, resets the device (R174). The
model's choices and readings: a stopped timer does not expire (log 6), the row FRAME_DELIVERY clocks what the frame still needs (log 3), and
the RESTART reply is the frame of kind 0x82 with body OK (log 21). -/
def Obligations.RestartIsFlaggedAndCarriedOut : Prop :=
  (∀ (s : State) (tag : Byte) (o : Outbound), accepts s.dev 0 o = true →
    exec (.restart tag []) s =
      replyTo s 0x82#8 tag [0x00#8] ((found o s.dev).updPort fun p => { p with restartPending := true, fallback := some 250 })) ∧
  (∀ (s : State) (n : Nat), s.dev.port.fallback = some n →
    exec .restartFallbackExpiry s = .next { s with dev := deviceReset (.ready .request) s.dev }) ∧
  (∀ s : State, s.dev.port.fallback = none → exec .restartFallbackExpiry s = .next s) ∧
  ∀ (s : State) (tag : Byte) (n : Nat), s.dev.port.transfer = .active → s.dev.port.parser = .hunt →
    s.dev.port.outbound = .chosen false ⟨0x82#8, tag, [0x00#8]⟩ n → n < 7 →
    exec (.frameDelivery []) s = .next { s with dev := deviceReset (.ready .request) s.dev }

/-- PING answers identity and capacities and changes nothing (R171). LINK_STATUS answers the counters with this request counted, the
reply-queue count and the mode; a set clear flag zeroes all six (R172). -/
def Obligations.PingAndLinkStatusAnswer : Prop :=
  (∀ (s : State) (tag : Byte) (o : Outbound), accepts s.dev 0 o = true →
    exec (.ping tag []) s =
      replyTo s 0x81#8 tag [0x00#8, 0x36#8, 0x4D#8, 1#8, 4#8, 64#8, 32#8, 24#8, 48#8, 32#8, 16#8, 60#8] (found o s.dev)) ∧
  ∀ (s : State) (tag clear : Byte) (o : Outbound), accepts s.dev 1 o = true →
    let n := s.dev.port.counters
    let fields := 0x00#8 ::
      (le16 (BitVec.ofNat 16 (min (n.accepted + 1) 65535)) ++ le16 (BitVec.ofNat 16 n.checkErrors) ++
        le16 (BitVec.ofNat 16 n.truncated) ++ le16 (BitVec.ofNat 16 n.strays) ++ le16 (BitVec.ofNat 16 n.unanswered) ++
        le16 (BitVec.ofNat 16 n.resends) ++ [byte s.dev.port.replies.length, s.dev.port.attention.code])
    (clear = 0#8 → exec (.linkStatus tag [clear]) s = replyTo s 0x83#8 tag fields (found o s.dev)) ∧
    (clear ≠ 0#8 → exec (.linkStatus tag [clear]) s =
      replyTo s 0x83#8 tag fields ((found o s.dev).updPort fun p => { p with counters := ⟨0, 0, 0, 0, 0, 0⟩ }))

/-- SET_ATTENTION (R170) and what ATTN does in each mode (R169). -/
def Obligations.AttentionModeIsSetAndDrivesAttn : Prop :=
  (∀ (s : State) (tag : Byte) (m : Attention) (o : Outbound), accepts s.dev 1 o = true →
    exec (.setAttention tag [m.code]) s =
      replyTo s 0x84#8 tag [0x00#8, s.dev.port.attention.code] ((found o s.dev).updPort fun p => { p with attention := m })) ∧
  (∀ (s : State) (tag b : Byte) (o : Outbound), accepts s.dev 1 o = true → 3 ≤ b.toNat →
    exec (.setAttention tag [b]) s = replyTo s 0x84#8 tag [0x04#8] (found o s.dev)) ∧
  ∀ d : Device,
    (d.attnLow = true ↔
      d.rstnLow = false ∧
      ((d.port.attention = .any ∧ (d.port.replies ≠ [] ∨ d.reports.list ≠ [])) ∨
        (d.port.attention = .replies ∧ d.port.replies ≠ [])))

/-- A frame that fails is answered with a REJECT for its length, its check or its kind, in this order (R162). That a REJECT of unknown kind
dropped by a full reply queue is counted as unanswered is the model's choice (log 33). -/
def Obligations.FailedFrameIsRejected : Prop :=
  let rejected := fun (tag reason : Byte) (s : State) (d : Device) =>
    if 4 ≤ s.dev.port.replies.length then (.next { s with dev := countUnanswered d } : Answer)
    else .next { s with dev := pushReply ⟨0xEF#8, tag, [reason]⟩ d }
  (∀ (s : State) (kind tag len c0 c1 : Byte) (body : List Byte) (o : Outbound), 60 < len.toNat → listens s.dev 4 o = true →
    exec (.rejectFrame kind tag len body c0 c1) s = rejected tag 0x02#8 s (countCheckError (atDone o s.dev))) ∧
  ∀ (s : State) (kind tag c0 c1 : Byte) (body : List Byte) (o : Outbound), body.length ≤ 60 →
    listens s.dev (6 + body.length) o = true →
    let check := le16 (crc16 (kind :: tag :: byte body.length :: body))
    (check ≠ [c0, c1] → exec (.rejectFrame kind tag (byte body.length) body c0 c1) s =
      rejected tag 0x01#8 s (countCheckError (atDone o s.dev))) ∧
    (check = [c0, c1] → (∀ k : RequestKind, k.code ≠ kind) → exec (.rejectFrame kind tag (byte body.length) body c0 c1) s =
      rejected tag 0x03#8 s (atDone o s.dev)) ∧
    (check = [c0, c1] → ∀ k : RequestKind, k.code = kind → exec (.rejectFrame kind tag (byte body.length) body c0 c1) s =
      .next { s with dev := takeRequest k tag body (atDone o s.dev) })

/-- What the parser does with a byte in each of its states (R161), and the rows that send a stray byte or the marker in HUNT. Outside a
transfer, and in one that is ignored, bytes of the link do nothing (R159, R175). -/
def Obligations.ParserTakesEachByteByItsState : Prop :=
  (∀ (d : Device) (b : Byte) (o : Outbound), d.port.transfer = .active → d.port.outbound.after 1 = some o →
    let at' := fun q : Parser => d.updPort fun p => { p with parser := q, outbound := o }
    (d.port.parser = .hunt → b = 0x00#8 → clockByte d b = at' .hunt) ∧
    (d.port.parser = .hunt → b = 0x5A#8 → clockByte d b = at' .kind) ∧
    (d.port.parser = .hunt → b ≠ 0x00#8 → b ≠ 0x5A#8 → clockByte d b = countStray (at' .hunt)) ∧
    (d.port.parser = .kind → clockByte d b = at' (.tag b)) ∧
    (∀ k, d.port.parser = .tag k → clockByte d b = at' (.length k b)) ∧
    (∀ k t, d.port.parser = .length k t → 1 ≤ b.toNat → b.toNat ≤ 60 → clockByte d b = at' (.body k t b [])) ∧
    (∀ k t, d.port.parser = .length k t → b = 0#8 → clockByte d b = at' (.check k t b [] none)) ∧
    (∀ k t, d.port.parser = .length k t → 61 ≤ b.toNat → clockByte d b = rejectInbound t .length (countCheckError (at' .done))) ∧
    (∀ k t n l, d.port.parser = .body k t n l → l.length + 1 < n.toNat → clockByte d b = at' (.body k t n (l ++ [b]))) ∧
    (∀ k t n l, d.port.parser = .body k t n l → l.length + 1 = n.toNat → clockByte d b = at' (.check k t n (l ++ [b]) none)) ∧
    (∀ k t n l, d.port.parser = .check k t n l none → clockByte d b = at' (.check k t n l (some b))) ∧
    (∀ k t n l c, d.port.parser = .check k t n l (some c) → clockByte d b = judgeFrame k t n l c b (at' .done)) ∧
    (d.port.parser = .done → clockByte d b = at' .done)) ∧
  (∀ (s : State) (z : Nat) (b : Byte) (o : Outbound), listens s.dev (z + 1) o = true → b ≠ 0x00#8 → b ≠ 0x5A#8 →
    exec (.strayByte z b) s = .next { s with dev := countStray (s.dev.updPort fun p => { p with outbound := o }) }) ∧
  (∀ (s : State) (z : Nat) (o : Outbound), listens s.dev (z + 1) o = true →
    exec (.inboundFrameBegins z) s = .next { s with dev := s.dev.updPort fun p => { p with parser := .kind, outbound := o } }) ∧
  ∀ s : State, s.dev.port.transfer ≠ .active →
    (∀ c k tag body, requestOf c = some (k, tag, body) → noteOf c = none → exec c s = .next s) ∧
    (∀ kind tag len body c0 c1, exec (.rejectFrame kind tag len body c0 c1) s = .next s) ∧
    (∀ z b, exec (.strayByte z b) s = .next s) ∧
    (∀ z, exec (.inboundFrameBegins z) s = .next s)

/-- A fall of MSEL fixes the outbound frame: the head reply, else the head report, a marker's count becoming the mark, else none (R166,
R153); while RSTN is low the transfer is ignored (R175). -/
def Obligations.TransferStartFixesTheOutboundFrame : Prop :=
  ∀ s : State, s.dev.port.transfer = .idle →
    (s.dev.rstnLow = true → exec .transferStart s = .next { s with dev := s.dev.updPort fun p => { p with transfer := .ignored } }) ∧
    (∀ f rest, s.dev.rstnLow = false → s.dev.port.replies = f :: rest →
      exec .transferStart s = .next { s with dev :=
        (s.dev.updReports fun q => { q with mark := none }).updPort fun p =>
          { p with transfer := .active, parser := .hunt, outbound := .chosen false f 0 } }) ∧
    (∀ r rest, s.dev.rstnLow = false → s.dev.port.replies = [] → s.dev.reports.list = r :: rest →
      exec .transferStart s = .next { s with dev :=
        (s.dev.updReports fun q => { q with mark := r.body.lostCount }).updPort fun p =>
          { p with transfer := .active, parser := .hunt, outbound := .chosen true r.frame 0 } }) ∧
    (s.dev.rstnLow = false → s.dev.port.replies = [] → s.dev.reports.list = [] →
      ∃ t, exec .transferStart s = .next { s with dev := t } ∧ t.mdoByte = some 0x00#8 ∧
        t = (s.dev.updReports fun q => { q with mark := none }).updPort fun p =>
          { p with transfer := .active, parser := .hunt, outbound := .nothing })

/-- A rise of MSEL: a partial inbound frame is counted as truncated (R163), an undelivered frame as a resend (R167), with its mark dropped
(R153); the bytes clocked before the rise come first. That the parser stands in HUNT from the rise on is the model's reading (log 26). Not
stated here: a TRANSFER_END with no transfer, which does nothing (log 6). -/
def Obligations.TransferEndCountsWhatWasCut : Prop :=
  let closed := fun d : Device => d.updPort fun p => { p with transfer := .idle, parser := .hunt, outbound := .nothing }
  let unmarked := fun d : Device => d.updReports fun q => { q with mark := none }
  (∀ (s : State) (mdi : List Byte), exec (.transferEnd mdi) s = exec (.transferEnd []) { s with dev := clockBytes mdi s.dev }) ∧
  (∀ s : State, s.dev.port.transfer = .ignored → exec (.transferEnd []) s = .next { s with dev := closed s.dev }) ∧
  ∀ s : State, s.dev.port.transfer = .active →
    let sending := ∃ r f n, s.dev.port.outbound = .chosen r f n
    let whole := s.dev.port.parser = .hunt ∨ s.dev.port.parser = .done
    (whole → ¬ sending → exec (.transferEnd []) s = .next { s with dev := closed s.dev }) ∧
    (whole → sending → exec (.transferEnd []) s = .next { s with dev := closed (countResend (unmarked s.dev)) }) ∧
    (¬ whole → ¬ sending → exec (.transferEnd []) s = .next { s with dev := closed (countTruncated s.dev) }) ∧
    (¬ whole → sending → exec (.transferEnd []) s = .next { s with dev := closed (countResend (unmarked (countTruncated s.dev))) })

/-- The last byte of the chosen frame delivers it: a reply or a report leaves the head of its queue, and a marker is settled against its
mark (R167, R153). Of that byte the outbound effect comes first: it frees its place before the parser takes the byte (R159), and the
delivery of the RESTART reply resets the device before the byte is taken (R176). The RESTART reply is the frame of kind 0x82 with body OK
(log 21); the row FRAME_DELIVERY clocks what the frame still needs, here with 0x00 on MDI and the parser in HUNT (log 3); a chosen report is
delivered also while a RESTART is pending (log 37). -/
def Obligations.DeliveryTakesTheHeadAndSettlesTheMarker : Prop :=
  (∀ (d : Device) (f : Frame) (n : Nat) (b : Byte), d.port.transfer = .active → d.port.outbound = .chosen false f n → n + 1 = f.length →
    (¬ (f.kind = 0x82#8 ∧ f.body = [0x00#8]) →
      clockByte d b = parseByte b (d.updPort fun p => { p with replies := p.replies.tail, outbound := .delivered })) ∧
    (f.kind = 0x82#8 → f.body = [0x00#8] → clockByte d b = deviceReset (.ready .request) d)) ∧
  ∀ (s : State) (isReport : Bool) (f : Frame) (n : Nat), s.dev.port.transfer = .active → s.dev.port.parser = .hunt →
    s.dev.port.outbound = .chosen isReport f n → n < f.length →
    let out := fun d : Device => d.updPort fun p => { p with outbound := .delivered }
    (isReport = false → ¬ (f.kind = 0x82#8 ∧ f.body = [0x00#8]) →
      exec (.frameDelivery []) s = .next { s with dev := s.dev.updPort fun p => { p with replies := p.replies.tail, outbound := .delivered } }) ∧
    (∀ r rest, isReport = true → s.dev.reports.list = r :: rest → r.body.lostCount = none →
      exec (.frameDelivery []) s = .next { s with dev := out (s.dev.updReports fun q => { q with list := rest, mark := none }) }) ∧
    (∀ seq c, isReport = true → s.dev.reports.list = [⟨seq, .reportsLost c⟩] → s.dev.reports.mark = some c →
      exec (.frameDelivery []) s = .next { s with dev := out (s.dev.updReports fun q => { q with list := [], mark := none }) }) ∧
    (∀ seq c m, isReport = true → s.dev.reports.list = [⟨seq, .reportsLost c⟩] → s.dev.reports.mark = some m → m < c →
      exec (.frameDelivery []) s = .next { s with dev := out (s.dev.updReports fun q =>
        { q with list := [⟨q.next, .reportsLost (c - m)⟩], next := q.next + 1#16, mark := none }) })

/-! ## Device resets (08 R156, 09 R174, R175) -/

/-- A fall of RSTN resets the device, its rise resets it again with READY and reason PIN, and a power-on reset gives READY with reason POWER
(R156, R175). The model's choices and readings: the report list is empty while RSTN is low (log 16), RSTN_ASSERT on a low pin and
RSTN_RELEASE on a high one do nothing (log 6), and a power-on reset while RSTN is low leaves READY with reason POWER (log 15). -/
def Obligations.PinAndPowerResetTheDevice : Prop :=
  (∀ s : State, s.dev.rstnLow = false →
    exec .rstnAssert s = .next { s with dev := { deviceReset .empty s.dev with rstnLow := true } }) ∧
  (∀ s : State, s.dev.rstnLow = true → exec .rstnAssert s = .next s) ∧
  (∀ s : State, s.dev.rstnLow = true →
    exec .rstnRelease s = .next { s with dev := { deviceReset (.ready .pin) s.dev with rstnLow := false } }) ∧
  (∀ s : State, s.dev.rstnLow = false → exec .rstnRelease s = .next s) ∧
  ∀ s : State, exec .powerOnReset s = .next { s with dev := deviceReset (.ready .power) s.dev }

/-- What a device reset leaves in every block (R4, R21, R44, R58, R59, R82, R105, R113, R117, R124, R147, R160). -/
def Obligations.DeviceResetLeavesEveryBlockAtItsValue : Prop :=
  ∀ (d : Device) (reason : ResetReason),
    let r := deviceReset (.ready reason) d
    (∀ i, (r.entry i).presence = .vacant ∧ (r.entry i).refs = 0) ∧
    (∀ i, (r.slot i).state = .free ∧ (r.slot i).gen = 0#11) ∧
    (∀ i, (r.seg i).state = .off ∧ (r.seg i).config = ⟨false, .khz100, 25, 0#7, false, false, 0x0C#7⟩ ∧ (r.seg i).fault = none ∧
      (r.seg i).urgent = [] ∧ (r.seg i).normal = [] ∧ (r.seg i).streak = 0 ∧ (r.seg i).held = false ∧
      (r.seg i).work = .nothing ∧ (r.seg i).reception = .nothing ∧ (r.seg i).sweep = .idle ∧ (r.seg i).emptySweeps = 0) ∧
    r.inbox = ⟨[], 0, 0⟩ ∧
    r.schedule.running = false ∧ r.schedule.frameLength = 10 ∧ r.schedule.frame = 0#32 ∧ r.schedule.timer = none ∧
    r.schedule.active = .a ∧ r.schedule.swapPending = false ∧ (∀ bank i, r.poll bank i = none) ∧
    r.reports = ⟨[⟨0#16, .ready reason⟩], 1#16, 0#32, none⟩ ∧
    r.port.parser = .hunt ∧ r.port.outbound = .nothing ∧ r.port.replies = [] ∧ r.port.counters = ⟨0, 0, 0, 0, 0, 0⟩ ∧
    r.port.attention = .any ∧ r.port.restartPending = false ∧ r.port.fallback = none ∧ r.port.transfer ≠ .active

/-! ## The Report Queue (08) -/

/-- The posting rule: masked, marker present, room, last place (R150). -/
def Obligations.PostingRuleHasFourCases : Prop :=
  ∀ (q : ReportQueue) (b : ReportBody),
    (b.maskedBy q.mask = true → q.post b = q) ∧
    (b.maskedBy q.mask = false → q.marker ≠ none →
      (q.post b).next = q.next ∧ (q.post b).mask = q.mask ∧ (q.post b).mark = q.mark ∧
      ∀ k : Nat, (q.post b).list[k]? = (q.list[k]?).map fun r =>
        match r.body with
        | .reportsLost n => ⟨r.seq, .reportsLost (min (n + 1) 65535)⟩
        | _ => r) ∧
    (b.maskedBy q.mask = false → q.marker = none → q.list.length < 31 →
      q.post b = { q with list := q.list ++ [⟨q.next, b⟩], next := q.next + 1#16 }) ∧
    (b.maskedBy q.mask = false → q.marker = none → q.list.length = 31 →
      q.post b = { q with list := q.list ++ [⟨q.next, .reportsLost 1⟩], next := q.next + 1#16 })

/-- SET_REPORT_MASK replaces a mask of nameable kinds and answers the old mask and the queue's state; other masks are refused (R155). -/
def Obligations.ReportMaskIsReplacedOrRefused : Prop :=
  ∀ (s : State) (tag b0 b1 b2 b3 : Byte) (o : Outbound), accepts s.dev 4 o = true →
    let q := s.dev.reports
    let m := b3 ++ b2 ++ b1 ++ b0
    (m &&& 0xFFFF0001#32 = 0#32 →
      exec (.setReportMask tag [b0, b1, b2, b3]) s =
        replyTo s 0x85#8 tag
          (0x00#8 :: (le32 q.mask ++ [byte q.list.length, flagByte q.marker.isSome] ++
            le16 (BitVec.ofNat 16 (q.marker.getD 0)) ++ le16 q.next))
          ((found o s.dev).updReports fun q => { q with mask := m })) ∧
    (m &&& 0xFFFF0001#32 ≠ 0#32 → exec (.setReportMask tag [b0, b1, b2, b3]) s = replyTo s 0x85#8 tag [0x04#8] (found o s.dev))

/-- R151, R148: every step keeps the law of the report list, its numbers running on to the next one. -/
def Obligations.EveryStepKeepsTheReportLaw : Prop :=
  ∀ s t : State, ReportLaw s.dev.reports → step s = .next t → ReportLaw t.dev.reports

/-- R165: every step keeps the reply queue at 4 frames or fewer. -/
def Obligations.EveryStepKeepsTheReplyLaw : Prop :=
  ∀ s t : State, ReplyLaw s.dev → step s = .next t → ReplyLaw t.dev

/-- R113: every step keeps the places and the entries of the inbox as the manual says. -/
def Obligations.EveryStepKeepsTheInboxLaw : Prop :=
  ∀ s t : State, InboxLaw s.dev → step s = .next t → InboxLaw t.dev

/-- R3: no step gives two entries that are not VACANT one segment and address. -/
def Obligations.EveryStepKeepsTheDirectoryLaw : Prop :=
  ∀ s t : State, DirectoryLaw s.dev → step s = .next t → DirectoryLaw t.dev

/-- R124, R127, R128, R136: every step keeps the frame timer, the swap-pending flag and the frame length in their ranges. -/
def Obligations.EveryStepKeepsTheScheduleLaw : Prop :=
  ∀ s t : State, ScheduleLaw s.dev.schedule → step s = .next t → ScheduleLaw t.dev.schedule

/-- The machine after reset satisfies every one of the laws, and no command waits. -/
def Obligations.ResetStateIsSound : Prop :=
  Sound State.reset.dev ∧ State.reset.pending = []

/-! ## What several statements claim -/

/-- What a conversation of a slot waits in, if it waits: a timed wait, or WAIT_FREE (R99). -/
def Claims.waiting (d : Device) (i : SlotId) (ctx : Context) : Prop :=
  ∃ h, (d.seg (targetSegment d (d.slot i).conv.target)).work = .conversation h ctx ∧ h.slot = i ∧ ctx.phase.waits = true

/-- The slot after its host conversation ended in NOTIFY or QUIET mode with a result (R38). -/
def Claims.heldDone (x : Slot) (r : ConvResult) : Slot :=
  { x with
    state := .done
    conv := { x.conv with result := some r, stop := none, assemblyTimer := none, deadlineTimer := none } }

/-- A conversation has ended with a result: a host conversation in NOTIFY or QUIET mode holds its slot in DONE; one in FIRE mode and an
instance of a poll entry have left it FREE, its generation raised by one (R21, R38 to R40). -/
def Claims.endedWith (x : Slot) (r : ConvResult) (y : Slot) : Prop :=
  (x.conv.origin = .host → x.conv.mode ≠ some .fire → y = Claims.heldDone x r) ∧
  ((x.conv.origin ≠ .host ∨ x.conv.mode = some .fire) → y = ⟨x.gen + 1#11, .free, .blank⟩)

/-- Nothing changes in the slots other than `i` and in the segments other than `seg`. -/
def Claims.onlyHere (i : SlotId) (seg : SegId) (d t : Device) : Prop :=
  (∀ k, k ≠ i → t.slot k = d.slot k) ∧ ∀ j, j ≠ seg → t.seg j = d.seg j

/-- The acknowledge bit of the address byte, if a position on the wire stands after its sampling (R9). -/
def Claims.sampled : BusPos → Option Bool
  | .data _ => some true
  | .checkByte _ => some true
  | .stop _ acked => some acked
  | _ => none

/-- A conversation has ended with a result, after its address event, as far as the directory, the pool, the schedule and the reports go
(R9, R37). -/
def Claims.endedAfterEvent (t : Target) (sampled : Option Bool) (i : SlotId) (r : ConvResult) (d after : Device) : Prop :=
  let told := finish i r (addressEvent t sampled d)
  after.directory = told.directory ∧ after.pool = told.pool ∧ after.schedule = told.schedule ∧ after.reports = told.reports

/-! ## The Target Directory (01) -/

/-- ADD_TARGET fills the lowest VACANT entry as UNCONFIRMED, or is refused by the first check that fails (R5). -/
def Obligations.AddTargetFillsTheLowestVacantEntry : Prop :=
  (∀ (s : State) (tag b0 b1 b2 b3 b4 b5 : Byte) (o : Outbound), accepts s.dev 6 o = true →
    (4 ≤ b0.toNat ∨ b1.toNat < 0x08 ∨ 0x77 < b1.toNat ∨ 2 ≤ b2.toNat ∨ 16 ≤ b5.toNat) →
    exec (.addTarget tag [b0, b1, b2, b3, b4, b5]) s = replyTo s 0x90#8 tag [0x04#8] (found o s.dev)) ∧
  ∀ (s : State) (tag lo hi : Byte) (seg : SegId) (a : Byte) (check : CheckMode) (threshold : Byte) (o : Outbound),
    accepts s.dev 6 o = true →
    let c : Instr := .addTarget tag [byte seg.val, a, check.code, lo, hi, threshold]
    let inRange := 0x08 ≤ a.toNat ∧ a.toNat ≤ 0x77 ∧ threshold.toNat ≤ 15
    let own := (s.dev.seg seg).config.ownAddress = a.setWidth 7
    let taken := ∃ i, (s.dev.entry i).presence ≠ .vacant ∧ (s.dev.entry i).segment = seg ∧ (s.dev.entry i).address = a.setWidth 7
    (inRange → own → exec c s = replyTo s 0x90#8 tag [0x0A#8] (found o s.dev)) ∧
    (inRange → ¬ own → taken → exec c s = replyTo s 0x90#8 tag [0x06#8] (found o s.dev)) ∧
    (inRange → ¬ own → ¬ taken → (∀ i, (s.dev.entry i).presence ≠ .vacant) →
      exec c s = replyTo s 0x90#8 tag [0x07#8] (found o s.dev)) ∧
    ∀ i : TargetId, inRange → ¬ own → ¬ taken → (s.dev.entry i).presence = .vacant →
      (∀ j, j < i → (s.dev.entry j).presence ≠ .vacant) →
      exec c s = replyTo s 0x90#8 tag [0x00#8, byte i.val] ((found o s.dev).updEntry i fun _ =>
        ⟨.unconfirmed, seg, a.setWidth 7, check, hi ++ lo, if threshold = 0#8 then 3 else threshold.toNat, 0, 0⟩)

/-- MODIFY_TARGET replaces check, label and threshold; the miss count becomes 0, or the threshold for a MISSING entry (R6). -/
def Obligations.ModifyTargetReplacesTheSettings : Prop :=
  ∀ (s : State) (tag lo hi : Byte) (i : TargetId) (check : CheckMode) (threshold : Byte) (o : Outbound), accepts s.dev 5 o = true →
    let c : Instr := .modifyTarget tag [byte i.val, check.code, lo, hi, threshold]
    let n := if threshold = 0#8 then 3 else threshold.toNat
    ((s.dev.entry i).presence = .vacant → exec c s = replyTo s 0x91#8 tag [0x05#8] (found o s.dev)) ∧
    ((s.dev.entry i).presence = .withdrawing → exec c s = replyTo s 0x91#8 tag [0x10#8] (found o s.dev)) ∧
    ((s.dev.entry i).presence ≠ .vacant → (s.dev.entry i).presence ≠ .withdrawing → 15 < threshold.toNat →
      exec c s = replyTo s 0x91#8 tag [0x04#8] (found o s.dev)) ∧
    (∀ b : Byte, (s.dev.entry i).presence ≠ .vacant → (s.dev.entry i).presence ≠ .withdrawing → 2 ≤ b.toNat →
      exec (.modifyTarget tag [byte i.val, b, lo, hi, threshold]) s = replyTo s 0x91#8 tag [0x04#8] (found o s.dev)) ∧
    ((s.dev.entry i).presence ≠ .vacant → (s.dev.entry i).presence ≠ .withdrawing → threshold.toNat ≤ 15 →
      exec c s = replyTo s 0x91#8 tag [0x00#8, byte i.val] ((found o s.dev).updEntry i fun e =>
        { e with check := check, label := hi ++ lo, threshold := n, misses := if e.presence = .missing then n else 0 }))

/-- The normal withdrawal: an unreferenced entry becomes VACANT, a referenced one is refused IN_USE (R15). -/
def Obligations.NormalWithdrawalNeedsNoReference : Prop :=
  ∀ (s : State) (tag : Byte) (i : TargetId) (o : Outbound), accepts s.dev 2 o = true →
    let c : Instr := .withdrawTargetNormal tag [byte i.val, 0#8]
    ((s.dev.entry i).presence = .vacant → exec c s = replyTo s 0x92#8 tag [0x05#8] (found o s.dev)) ∧
    ((s.dev.entry i).presence = .withdrawing → exec c s = replyTo s 0x92#8 tag [0x10#8] (found o s.dev)) ∧
    ((s.dev.entry i).presence ≠ .vacant → (s.dev.entry i).presence ≠ .withdrawing → (s.dev.entry i).refs = 0 →
      exec c s = replyTo s 0x92#8 tag [0x00#8, 0#8] ((found o s.dev).updEntry i fun _ => .vacant)) ∧
    ((s.dev.entry i).presence ≠ .vacant → (s.dev.entry i).presence ≠ .withdrawing → (s.dev.entry i).refs ≠ 0 →
      exec c s = replyTo s 0x92#8 tag [0x08#8] (found o s.dev))

/-- The forced withdrawal is refused while the active bank, or a shadow bank about to be swapped in, names the target (R16). Otherwise no
shadow entry names it afterwards, each ASSEMBLING or QUEUED conversation on it has ended WITHDRAWN and left its queue, and the entry is VACANT
if nothing refers to it then (R16, R17). A RUNNING conversation on it has the stop request WITHDRAWN, unless it holds one, and the entry is
WITHDRAWING until that conversation ends (R17); a waiting engine takes the request (R101) and makes a selection as it returns to IDLE (R47),
and that it does so only after the reply has read WITHDRAWING is the model's reading (log 10). References rise and fall by one; the last release of a WITHDRAWING entry makes it VACANT and posts TARGET_STATE (R8,
R17). -/
def Obligations.ForcedWithdrawalClearsTheWaitingWork : Prop :=
  (∀ (s : State) (tag : Byte) (i : TargetId) (o : Outbound), accepts s.dev 2 o = true →
    (s.dev.entry i).presence ≠ .vacant → (s.dev.entry i).presence ≠ .withdrawing →
    let c : Instr := .withdrawTargetForced tag [byte i.val, 1#8]
    let e := s.dev.entry i
    let active := s.dev.schedule.active
    let names := fun (bank : Bank) (d : Device) => ∃ k p, d.poll bank k = some p ∧ p.config.target = i
    let on := fun k => (s.dev.slot k).conv.target = .directory i
    let runs := fun k => on k ∧ (s.dev.slot k).state = .running
    let ends := fun k => on k ∧ ((s.dev.slot k).state = .assembling ∨ (s.dev.slot k).state = .queued)
    (names active s.dev → exec c s = replyTo s 0x92#8 tag [0x09#8] (found o s.dev)) ∧
    (¬ names active s.dev → s.dev.schedule.swapPending = true → names active.other s.dev →
      exec c s = replyTo s 0x92#8 tag [0x12#8] (found o s.dev)) ∧
    (¬ names active s.dev → ¬ (s.dev.schedule.swapPending = true ∧ names active.other s.dev) →
      (∃ t, exec c s = .next t) ∧
      (WorkLaw s.dev →
        (e.refs = 0 → exec c s = replyTo s 0x92#8 tag [0x00#8, 0#8] ((found o s.dev).updEntry i fun _ => .vacant)) ∧
        ∃ d : Device, ¬ names active.other d ∧
          (∀ k, ends k → Claims.endedWith (s.dev.slot k) ⟨.withdrawn, 0, some 0, [], none⟩ (d.slot k)) ∧
          (∀ k, ¬ ends k → ¬ runs k → d.slot k = s.dev.slot k) ∧
          (∀ g cls, (d.seg g).waiting cls =
            ((s.dev.seg g).waiting cls).filter fun h => decide ((s.dev.slot h.slot).conv.target ≠ .directory i)) ∧
          ((∀ k, ¬ runs k) → exec c s = replyTo s 0x92#8 tag [0x00#8, 0#8] d ∧ d.entry i = .vacant) ∧
          (∀ k, runs k → (¬ ∃ ctx, Claims.waiting s.dev k ctx) →
            exec c s = replyTo s 0x92#8 tag [0x00#8, 5#8] d ∧ d.entry i = { e with presence := .withdrawing, refs := 1 } ∧
            d.slot k = { s.dev.slot k with conv := { (s.dev.slot k).conv with stop := (s.dev.slot k).conv.stop.or (some .withdrawn) } }) ∧
          ∀ k ctx, runs k → Claims.waiting s.dev k ctx →
            exec c s = replyTo s 0x92#8 tag [0x00#8, 5#8] (makeSelection e.segment d) ∧ d.entry i = .vacant ∧
            (d.seg e.segment).state = .idle ∧ (d.seg e.segment).work = .nothing ∧
            Claims.endedWith (s.dev.slot k)
              ⟨((s.dev.slot k).conv.stop.getD .withdrawn).outcome, ctx.completed, some ctx.completed, ctx.readData, ctx.lastValue⟩
              (d.slot k)))) ∧
  ∀ (d : Device) (i : TargetId),
    let e := d.entry i
    (∀ g a k, raiseTarget (.raw g a k) d = d ∧ releaseTarget (.raw g a k) d = d) ∧
    raiseTarget (.directory i) d = d.updEntry i (fun e => { e with refs := e.refs + 1 }) ∧
    raiseRef i d = raiseTarget (.directory i) d ∧ releaseRef i d = releaseTarget (.directory i) d ∧
    ((e.presence ≠ .withdrawing ∨ 2 ≤ e.refs) →
      releaseTarget (.directory i) d = d.updEntry i fun e => { e with refs := e.refs - 1 }) ∧
    (e.presence = .withdrawing → e.refs ≤ 1 →
      releaseTarget (.directory i) d = post (.targetState i e.label .vacant) (d.updEntry i fun _ => .vacant))

/-- READ_TARGET and LIST_TARGETS answer from the directory and change nothing else (R19, R20). -/
def Obligations.DirectoryIsReadBack : Prop :=
  (∀ (s : State) (tag : Byte) (i : TargetId) (o : Outbound), accepts s.dev 1 o = true →
    let e := s.dev.entry i
    (e.presence = .vacant → exec (.readTarget tag [byte i.val]) s = replyTo s 0x93#8 tag (List.replicate 10 0x00#8) (found o s.dev)) ∧
    (e.presence ≠ .vacant → exec (.readTarget tag [byte i.val]) s =
      replyTo s 0x93#8 tag
        ([0x00#8, e.presence.code, byte e.segment.val, e.address.setWidth 8, e.check.code] ++ le16 e.label ++
          [byte e.threshold, byte e.misses, byte e.refs]) (found o s.dev))) ∧
  (∀ (s : State) (tag b : Byte) (o : Outbound), accepts s.dev 1 o = true → 64 ≤ b.toNat →
    exec (.readTarget tag [b]) s = replyTo s 0x93#8 tag [0x04#8] (found o s.dev) ∧
    exec (.listTargets tag [b]) s = replyTo s 0x94#8 tag [0x04#8] (found o s.dev)) ∧
  ∀ (s : State) (tag : Byte) (start : TargetId) (o : Outbound), accepts s.dev 1 o = true →
    let all := (List.finRange 64).filter fun i => decide (start ≤ i) && decide ((s.dev.entry i).presence ≠ .vacant)
    let l := all.take 12
    let next := match l with
      | [_, _, _, _, _, _, _, _, _, _, _, last] => last.val + 1
      | _ => 64
    exec (.listTargets tag [byte start.val]) s =
      replyTo s 0x94#8 tag
        ([0x00#8, byte l.length, byte next] ++ l.flatMap fun i =>
          [byte i.val, (s.dev.entry i).presence.code, byte (s.dev.entry i).segment.val, (s.dev.entry i).address.setWidth 8])
        (found o s.dev)

/-- A transaction to a directory target whose acknowledge bit was sampled sends an ACK or a NAK event, one to a raw target none (R9). The
events move the presence state and the miss count, and post TARGET_STATE on the changes that R10 and R11 name; WITHDRAWING stays as it is
(R12). That an event at a VACANT entry does nothing is the model's own clause, since by R12 none finds one (log 6). -/
def Obligations.AddressEventsMoveThePresence : Prop :=
  ∀ (d : Device) (i : TargetId),
    let e := d.entry i
    let n := min (e.misses + 1) e.threshold
    ((e.presence = .unconfirmed ∨ e.presence = .missing) →
      ackEvent i d = post (.targetState i e.label .present) (d.updEntry i fun e => { e with presence := .present, misses := 0 })) ∧
    ((e.presence = .present ∨ e.presence = .suspect) → ackEvent i d = d.updEntry i fun e => { e with presence := .present, misses := 0 }) ∧
    ((e.presence = .withdrawing ∨ e.presence = .vacant) → ackEvent i d = d ∧ nakEvent i d = d) ∧
    ((e.presence = .unconfirmed ∨ e.presence = .present ∨ e.presence = .suspect) → n = e.threshold →
      nakEvent i d = post (.targetState i e.label .missing) (d.updEntry i fun e => { e with presence := .missing, misses := n })) ∧
    (e.presence = .unconfirmed → n ≠ e.threshold → nakEvent i d = d.updEntry i fun e => { e with misses := n }) ∧
    ((e.presence = .present ∨ e.presence = .suspect) → n ≠ e.threshold →
      nakEvent i d = d.updEntry i fun e => { e with presence := .suspect, misses := n }) ∧
    (e.presence = .missing → nakEvent i d = d.updEntry i fun e => { e with misses := n }) ∧
    addressEvent (.directory i) (some true) d = ackEvent i d ∧ addressEvent (.directory i) (some false) d = nakEvent i d ∧
    addressEvent (.directory i) none d = d ∧ ∀ g a k sampled, addressEvent (.raw g a k) sampled d = d

/-! ## The Conversation Pool (02) -/

/-- The five requests that name a handle first check its range, then that it names a conversation (R22). -/
def Obligations.HandleIsCheckedBeforeAnythingElse : Prop :=
  ∀ (c : Instr) (k : RequestKind) (tag b0 b1 b2 : Byte) (rest : List Byte) (s : State) (o : Outbound),
    requestOf c = some (k, tag, b0 :: b1 :: b2 :: rest) →
    (k = .cancelConversation ∨ k = .appendSteps ∨ k = .submitConversation ∨ k = .conversationStatus ∨ k = .fetchResult) →
    rest.length ≤ 57 → lengthAllowed k (b0 :: b1 :: b2 :: rest) = true → accepts s.dev (3 + rest.length) o = true →
    ((32 ≤ b0.toNat ∨ 2048 ≤ (b2 ++ b1).toNat) → exec c s = replyTo s (k.code + 0x80#8) tag [0x04#8] (found o s.dev)) ∧
    (∀ i : SlotId, b0 = byte i.val → (b2 ++ b1).toNat < 2048 →
      ((s.dev.slot i).state = .free ∨ (s.dev.slot i).gen.toNat ≠ (b2 ++ b1).toNat) →
      exec c s = replyTo s (k.code + 0x80#8) tag [0x0C#8] (found o s.dev))

/-- Step records are read back as the steps that wrote them by the layout of R179, with every field at every value R25 allows, and nothing
else is read: bytes are read as a list of steps exactly when they are the records of those steps, each in range. -/
def Obligations.StepRecordsAreReadBack : Prop :=
  ∀ (bytes : List Byte) (l : List Step),
    stepsOf bytes = some l ↔ (∀ x ∈ l, x.inRange = true) ∧ l.flatMap Step.bytes = bytes

/-- A body field outside its range that the owner's first check refuses (R15, R28, R32, R53 to R55, R60, R62, R80, R83, R132, R133, R135). -/
def Claims.outOfRange (k : RequestKind) (body : List Byte) : Prop :=
  let b := fun n => (body.getD n 0#8).toNat
  let header := 2 ≤ b 0 ∨ (b 0 = 0 ∧ 64 ≤ b 1) ∨ (b 0 = 1 ∧ (128 ≤ b 1 ∨ 4 ≤ b 2 ∨ 2 ≤ b 3)) ∨ 2 ≤ b 4 ∨ 3 ≤ b 5 ∨
    (b 8 ≠ 0 ∧ (7 < b 9 ∨ b 10 = 0 ∨ 15 < b 11))
  match k with
  | .modifyTarget => 64 ≤ b 0
  | .withdrawTarget => 64 ≤ b 0 ∨ 2 ≤ b 1
  | .configureSegment => 4 ≤ b 0 ∨ 2 ≤ b 2
  | .segmentStatus | .holdSegment | .releaseSegment | .resetSegment | .flushSegment | .readFault => 4 ≤ b 0
  | .openConversation => header
  | .runConversation => header ∨ stepsOf (body.drop (headerLength body)) = none
  | .putPoll => 48 ≤ b 0 ∨ 64 ≤ b 1 ∨ 3 ≤ b 8 ∨ 2 ≤ b 9
  | .clearPoll => 48 ≤ b 0
  | .readPoll => 2 ≤ b 0 ∨ 48 ≤ b 1
  | _ => False

/-- An index, a segment, a bank or a code outside its list is refused BAD_FIELD by the first check of each of these requests, and a step
record that is malformed in RUN_CONVERSATION or APPEND_STEPS too (R6, R15, R28, R29, R32, R53 to R55, R60, R62, R80, R83, R132, R133, R135).
That the note of the wire is taken even so is the model's choice (logs 7 and 32). -/
def Obligations.FieldsOutOfRangeAreRefused : Prop :=
  (∀ (c : Instr) (k : RequestKind) (tag : Byte) (body : List Byte) (s : State) (o : Outbound), requestOf c = some (k, tag, body) →
    body.length ≤ 60 → lengthAllowed k body = true → accepts s.dev body.length o = true → Claims.outOfRange k body →
    exec c s = replyTo s (k.code + 0x80#8) tag [0x04#8] (found o (takeNote (noteOf c) s.dev))) ∧
  ∀ (s : State) (tag : Byte) (h : Handle) (records : List Byte) (o : Outbound),
    let body := h.bytes ++ records
    body.length ≤ 60 → lengthAllowed .appendSteps body = true → accepts s.dev body.length o = true → (s.dev.slot h.slot).gen = h.gen →
    (s.dev.slot h.slot).state = .assembling → stepsOf records = none →
    exec (.appendSteps tag body) s = replyTo s 0xB1#8 tag [0x04#8] (found o s.dev)

/-- OPEN_CONVERSATION takes the lowest FREE slot for an ASSEMBLING conversation with its timer at 1000 ms and one reference more, or is
refused by the first check that fails (R28). -/
def Obligations.OpenTakesTheLowestFreeSlot : Prop :=
  ∀ (s : State) (tag x y : Byte) (t : Target) (cls : Machine.Class) (m : ReportMode) (deadline : Half) (retry : Option (Byte × RetrySettings))
    (o : Outbound), (∀ p, retry = some p → p.1 ≠ 0#8 ∧ p.2.inRange = true) →
    let body := headerBytes x y t cls m deadline retry
    accepts s.dev body.length o = true →
    let c : Instr := .openConversation tag body
    let full := 24 ≤ hostHeld s.dev ∨ ∀ i, (s.dev.slot i).state ≠ .free
    (full → exec c s = replyTo s 0xB0#8 tag [0x0B#8] (found o s.dev)) ∧
    (∀ j, ¬ full → t = .directory j → (s.dev.entry j).presence = .vacant → exec c s = replyTo s 0xB0#8 tag [0x05#8] (found o s.dev)) ∧
    (∀ j, ¬ full → t = .directory j → (s.dev.entry j).presence = .withdrawing →
      exec c s = replyTo s 0xB0#8 tag [0x10#8] (found o s.dev)) ∧
    ∀ i : SlotId, hostHeld s.dev < 24 → (s.dev.slot i).state = .free → (∀ j, j < i → (s.dev.slot j).state ≠ .free) →
      (∀ j, t = .directory j → (s.dev.entry j).presence ≠ .vacant ∧ (s.dev.entry j).presence ≠ .withdrawing) →
      exec c s = replyTo s 0xB0#8 tag (0x00#8 :: byte i.val :: le16 ((s.dev.slot i).gen.setWidth 16))
        (raiseTarget t ((found o s.dev).updSlot i fun x =>
          ⟨x.gen, .assembling, headerConv t cls m deadline retry [] (some 1000)⟩))

/-- APPEND_STEPS adds all of its steps and restarts the timer at 1000 ms, or adds none (R29). -/
def Obligations.AppendAddsAllStepsOrNone : Prop :=
  ∀ (s : State) (tag : Byte) (h : Handle) (new : List Step) (o : Outbound), (∀ x ∈ new, x.inRange = true) →
    let body := h.bytes ++ new.flatMap Step.bytes
    body.length ≤ 60 → accepts s.dev body.length o = true → (s.dev.slot h.slot).gen = h.gen → (s.dev.slot h.slot).state ≠ .free →
    let c : Instr := .appendSteps tag body
    let steps := (s.dev.slot h.slot).conv.steps ++ new
    ((s.dev.slot h.slot).state ≠ .assembling → exec c s = replyTo s 0xB1#8 tag [0x0D#8] (found o s.dev)) ∧
    ((s.dev.slot h.slot).state = .assembling → ¬ joinsFollowed steps → exec c s = replyTo s 0xB1#8 tag [0x04#8] (found o s.dev)) ∧
    ((s.dev.slot h.slot).state = .assembling → joinsFollowed steps → withinLimits steps = false →
      exec c s = replyTo s 0xB1#8 tag [0x0E#8] (found o s.dev)) ∧
    ((s.dev.slot h.slot).state = .assembling → joinsFollowed steps → withinLimits steps = true →
      exec c s = replyTo s 0xB1#8 tag [0x00#8, byte steps.length] ((found o s.dev).updSlot h.slot fun x =>
        { x with conv := { x.conv with steps := steps, assemblyTimer := some 1000 } }))

/-- SUBMIT_CONVERSATION queues an ASSEMBLING conversation on its segment under its class, stops the idle timer and starts the deadline
timer, or is refused by the first check that fails (R31); the join makes a selection (R47). -/
def Obligations.SubmitQueuesUnderTheClass : Prop :=
  ∀ (s : State) (tag : Byte) (h : Handle) (o : Outbound), accepts s.dev 3 o = true →
    (s.dev.slot h.slot).gen = h.gen → (s.dev.slot h.slot).state ≠ .free →
    let c : Instr := .submitConversation tag h.bytes
    let v := (s.dev.slot h.slot).conv
    let seg := targetSegment s.dev v.target
    let assembling := (s.dev.slot h.slot).state = .assembling
    (¬ assembling → exec c s = replyTo s 0xB2#8 tag [0x0D#8] (found o s.dev)) ∧
    (assembling → v.steps = [] → exec c s = replyTo s 0xB2#8 tag [0x13#8] (found o s.dev)) ∧
    (∀ l x, assembling → v.steps = l ++ [x] → x.joined = true → exec c s = replyTo s 0xB2#8 tag [0x04#8] (found o s.dev)) ∧
    (∀ l x, assembling → v.steps = l ++ [x] → x.joined = false → (s.dev.seg seg).state = .off →
      exec c s = replyTo s 0xB2#8 tag [0x0F#8] (found o s.dev)) ∧
    (∀ l x, assembling → v.steps = l ++ [x] → x.joined = false → (s.dev.seg seg).state ≠ .off →
      exec c s = replyTo s 0xB2#8 tag [0x00#8] (makeSelection seg
        (((found o s.dev).updSlot h.slot fun x =>
          { x with state := .queued, conv := { x.conv with assemblyTimer := none, deadlineTimer := x.conv.deadline } }).updSeg seg fun g =>
          match v.cls with
          | .urgent => { g with urgent := g.urgent ++ [h] }
          | .normal => { g with normal := g.normal ++ [h] })))

/-- RUN_CONVERSATION opens, fills and queues a conversation in one action, or is refused by the first check that fails and takes no slot
(R32); the join makes a selection (R47). -/
def Obligations.RunOpensFillsAndQueues : Prop :=
  ∀ (s : State) (tag x y : Byte) (t : Target) (cls : Machine.Class) (m : ReportMode) (deadline : Half) (retry : Option (Byte × RetrySettings))
    (steps : List Step) (o : Outbound), (∀ p, retry = some p → p.1 ≠ 0#8 ∧ p.2.inRange = true) → (∀ x ∈ steps, x.inRange = true) →
    let body := headerBytes x y t cls m deadline retry ++ steps.flatMap Step.bytes
    body.length ≤ 60 → accepts s.dev body.length o = true →
    let c : Instr := .runConversation tag body
    let seg := targetSegment s.dev t
    let full := 24 ≤ hostHeld s.dev ∨ ∀ i, (s.dev.slot i).state ≠ .free
    (¬ joinsFollowed steps → exec c s = replyTo s 0xB3#8 tag [0x04#8] (found o s.dev)) ∧
    (joinsFollowed steps → withinLimits steps = false → exec c s = replyTo s 0xB3#8 tag [0x0E#8] (found o s.dev)) ∧
    (steps = [] → exec c s = replyTo s 0xB3#8 tag [0x13#8] (found o s.dev)) ∧
    ∀ l last, steps = l ++ [last] → joinsFollowed steps → withinLimits steps = true →
      (last.joined = true → exec c s = replyTo s 0xB3#8 tag [0x04#8] (found o s.dev)) ∧
      (last.joined = false → full → exec c s = replyTo s 0xB3#8 tag [0x0B#8] (found o s.dev)) ∧
      (∀ j, last.joined = false → ¬ full → t = .directory j → (s.dev.entry j).presence = .vacant →
        exec c s = replyTo s 0xB3#8 tag [0x05#8] (found o s.dev)) ∧
      (∀ j, last.joined = false → ¬ full → t = .directory j → (s.dev.entry j).presence = .withdrawing →
        exec c s = replyTo s 0xB3#8 tag [0x10#8] (found o s.dev)) ∧
      ∀ i : SlotId, last.joined = false → hostHeld s.dev < 24 → (s.dev.slot i).state = .free →
        (∀ j, j < i → (s.dev.slot j).state ≠ .free) →
        (∀ j, t = .directory j → (s.dev.entry j).presence ≠ .vacant ∧ (s.dev.entry j).presence ≠ .withdrawing) →
        ((s.dev.seg seg).state = .off → exec c s = replyTo s 0xB3#8 tag [0x0F#8] (found o s.dev)) ∧
        ((s.dev.seg seg).state ≠ .off →
          exec c s = replyTo s 0xB3#8 tag (0x00#8 :: byte i.val :: le16 ((s.dev.slot i).gen.setWidth 16))
            (makeSelection seg ((raiseTarget t ((found o s.dev).updSlot i fun x =>
              ⟨x.gen, .queued,
                { headerConv t cls m deadline retry steps none with
                  deadlineTimer := if deadline = 0#16 then none else some deadline.toNat }⟩)).updSeg seg fun g =>
              match cls with
              | .urgent => { g with urgent := g.urgent ++ [s.dev.handle i] }
              | .normal => { g with normal := g.normal ++ [s.dev.handle i] })))

/-- CANCEL_CONVERSATION by the slot's state (R36); a stop request set during a wait is taken at once (R101), and the engine's return to IDLE
makes a selection (R47). -/
def Obligations.CancelActsByTheSlotState : Prop :=
  ∀ (s : State) (tag : Byte) (h : Handle) (o : Outbound), accepts s.dev 3 o = true → (s.dev.slot h.slot).gen = h.gen →
    let c : Instr := .cancelConversation tag h.bytes
    let x := s.dev.slot h.slot
    let seg := targetSegment s.dev x.conv.target
    (x.state = .assembling →
      exec c s = replyTo s 0xB4#8 tag [0x00#8]
        (releaseTarget x.conv.target ((found o s.dev).updSlot h.slot fun x => ⟨x.gen + 1#11, .free, .blank⟩))) ∧
    (x.state = .queued → ∃ d, exec c s = replyTo s 0xB4#8 tag [0x00#8] d ∧ Claims.onlyHere h.slot seg s.dev d ∧
      (d.seg seg).urgent = (s.dev.seg seg).urgent.erase h ∧ (d.seg seg).normal = (s.dev.seg seg).normal.erase h ∧
      Claims.endedWith x ⟨.cancelled, 0, some 0, [], none⟩ (d.slot h.slot)) ∧
    (x.state = .running → (¬ ∃ ctx, Claims.waiting s.dev h.slot ctx) →
      exec c s = replyTo s 0xB4#8 tag [0x01#8] ((found o s.dev).updSlot h.slot fun x =>
        { x with conv := { x.conv with stop := x.conv.stop.or (some .cancelled) } })) ∧
    (∀ ctx, x.state = .running → Claims.waiting s.dev h.slot ctx → ∃ d,
      exec c s = replyTo s 0xB4#8 tag [0x01#8] (makeSelection seg d) ∧ Claims.onlyHere h.slot seg s.dev d ∧
      d.seg seg = { s.dev.seg seg with work := .nothing, state := .idle } ∧
      Claims.endedWith x ⟨(x.conv.stop.getD .cancelled).outcome, ctx.completed, some ctx.completed, ctx.readData, ctx.lastValue⟩
        (d.slot h.slot)) ∧
    (x.state = .done → exec c s = replyTo s 0xB4#8 tag [0x14#8] (found o s.dev))

/-- CONVERSATION_STATUS by the slot's state, changing nothing (R41). Fields without meaning, the bank and the entry index of a HOST origin
among them, are sent as 0, the model's reading (log 12). -/
def Obligations.ConversationStatusShowsTheSlot : Prop :=
  ∀ (s : State) (tag : Byte) (h : Handle) (o : Outbound), accepts s.dev 3 o = true → (s.dev.slot h.slot).gen = h.gen →
    let c : Instr := .conversationStatus tag h.bytes
    let x := s.dev.slot h.slot
    let origin := match x.conv.origin with
      | .host => [0#8, 0#8, 0#8]
      | .poll bank i => [1#8, bank.code, byte i.val]
    let n := byte x.conv.steps.length
    (x.state = .assembling → exec c s = replyTo s 0xB5#8 tag ([0x00#8, 1#8] ++ origin ++ [n, 0#8, 0#8, 0#8, 0#8]) (found o s.dev)) ∧
    (x.state = .queued → exec c s = replyTo s 0xB5#8 tag ([0x00#8, 2#8] ++ origin ++ [n, 0#8, 0#8, 0#8, 0#8]) (found o s.dev)) ∧
    (∀ hh ctx, x.state = .running → (s.dev.seg (targetSegment s.dev x.conv.target)).work = .conversation hh ctx → hh.slot = h.slot →
      (x.conv.stop = none → exec c s =
        replyTo s 0xB5#8 tag ([0x00#8, 3#8] ++ origin ++ [n, byte ctx.completed, 0#8, 0#8, 0#8]) (found o s.dev)) ∧
      (∀ cause, x.conv.stop = some cause → exec c s =
        replyTo s 0xB5#8 tag ([0x00#8, 3#8] ++ origin ++ [n, byte ctx.completed, 1#8, cause.outcome.code, 0#8]) (found o s.dev))) ∧
    (∀ r, x.state = .done → x.conv.result = some r → exec c s =
      replyTo s 0xB5#8 tag ([0x00#8, 4#8] ++ origin ++ [n, byte r.completed, 2#8, 0#8, r.outcome.code]) (found o s.dev))

/-- FETCH_RESULT answers a DONE conversation's result from the offset and frees the slot when the release flag is set (R42). -/
def Obligations.FetchResultAnswersAndReleases : Prop :=
  ∀ (s : State) (tag offset release : Byte) (h : Handle) (o : Outbound), accepts s.dev 5 o = true →
    (s.dev.slot h.slot).gen = h.gen → (s.dev.slot h.slot).state ≠ .free →
    let c : Instr := .fetchResult tag (h.bytes ++ [offset, release])
    (64 < offset.toNat → exec c s = replyTo s 0xB6#8 tag [0x04#8] (found o s.dev)) ∧
    (offset.toNat ≤ 64 → (s.dev.slot h.slot).state ≠ .done → exec c s = replyTo s 0xB6#8 tag [0x0D#8] (found o s.dev)) ∧
    ∀ r, offset.toNat ≤ 64 → (s.dev.slot h.slot).state = .done → (s.dev.slot h.slot).conv.result = some r →
      let fields := [0x00#8, r.outcome.code, byte r.completed, flagByte r.failing.isSome, byte (r.failing.getD 0),
          byte (r.lastValue.getD []).length] ++ padTo 4 (r.lastValue.getD []) ++ [byte r.bytes.length] ++
          (r.bytes.drop offset.toNat).take 40
      (release = 0#8 → exec c s = replyTo s 0xB6#8 tag fields (found o s.dev)) ∧
      (release ≠ 0#8 → exec c s = replyTo s 0xB6#8 tag fields
        ((found o s.dev).updSlot h.slot fun x => ⟨x.gen + 1#11, .free, .blank⟩))

/-- The assembly idle timer frees the slot and posts ASSEMBLY_EXPIRED (R30); the deadline timer ends a QUEUED conversation EXPIRED or sets a
stop request on a RUNNING one, which a waiting engine takes at once (R34, R101), its return to IDLE making a selection (R47). A stopped timer
does not expire (log 6), and the deadline timer of a RUNNING conversation is stopped once it has expired (log 29). -/
def Obligations.PoolTimersExpire : Prop :=
  ∀ (s : State) (i : SlotId),
    let x := s.dev.slot i
    let seg := targetSegment s.dev x.conv.target
    (x.conv.assemblyTimer = none → exec (.assemblyExpiry i) s = .next s) ∧
    let freed := releaseTarget x.conv.target (s.dev.updSlot i fun x => ⟨x.gen + 1#11, .free, .blank⟩)
    (∀ n, x.conv.assemblyTimer = some n →
      exec (.assemblyExpiry i) s = .next { s with dev := post (.assemblyExpired ⟨i, x.gen⟩) freed }) ∧
    (x.conv.deadlineTimer = none → exec (.deadlineExpiry i) s = .next s) ∧
    (∀ n, x.conv.deadlineTimer = some n → x.state = .queued → ∃ d, exec (.deadlineExpiry i) s = .next { s with dev := d } ∧
      Claims.onlyHere i seg s.dev d ∧ (d.seg seg).urgent = (s.dev.seg seg).urgent.erase ⟨i, x.gen⟩ ∧
      (d.seg seg).normal = (s.dev.seg seg).normal.erase ⟨i, x.gen⟩ ∧
      Claims.endedWith x ⟨.expired, 0, some 0, [], none⟩ (d.slot i)) ∧
    (∀ n, x.conv.deadlineTimer = some n → x.state = .running → (¬ ∃ ctx, Claims.waiting s.dev i ctx) →
      exec (.deadlineExpiry i) s = .next { s with dev := s.dev.updSlot i fun x =>
        { x with conv := { x.conv with deadlineTimer := none, stop := x.conv.stop.or (some .expired) } } }) ∧
    (∀ n ctx, x.conv.deadlineTimer = some n → x.state = .running → Claims.waiting s.dev i ctx →
      ∃ d, exec (.deadlineExpiry i) s = .next { s with dev := makeSelection seg d } ∧ Claims.onlyHere i seg s.dev d ∧
        d.seg seg = { s.dev.seg seg with work := .nothing, state := .idle } ∧
        Claims.endedWith x ⟨(x.conv.stop.getD .expired).outcome, ctx.completed, some ctx.completed, ctx.readData, ctx.lastValue⟩
          (d.slot i))

/-- Entering DONE: the result is fixed, timers and stop request go, the reference is released, and then the report mode or the origin acts
(R37 to R40); the scheduler applies or drops the result of an instance (R143 to R145). -/
def Obligations.EnteringDoneActsByModeOrOrigin : Prop :=
  (∀ (d : Device) (i : SlotId) (r : ConvResult),
    let x := d.slot i
    let h : Handle := ⟨i, x.gen⟩
    let released := releaseTarget x.conv.target (d.updSlot i fun x => Claims.heldDone x r)
    let freed := fun d : Device => d.updSlot i fun x => ⟨x.gen + 1#11, .free, .blank⟩
    (x.conv.origin = .host → x.conv.mode = some .notify →
      finish i r d = post (.completed h r.outcome r.completed (r.bytes.take 32) (decide (32 < r.bytes.length))) released) ∧
    (x.conv.origin = .host → x.conv.mode = some .quiet → finish i r d = released) ∧
    (x.conv.origin = .host → x.conv.mode = some .fire → r.outcome = .ok → finish i r d = freed released) ∧
    (∀ k, x.conv.origin = .host → x.conv.mode = some .fire → r.outcome ≠ .ok → r.failing = some k →
      finish i r d = post (.failed h r.outcome k) (freed released)) ∧
    (∀ bank k, x.conv.origin = .poll bank k → finish i r d = freed (takePollResult bank k h r released))) ∧
  ∀ (d : Device) (bank : Bank) (k : PollId) (h : Handle) (r : ConvResult) (e : PollEntry), d.poll bank k = some e →
    let masked := fun v : List Byte => List.zipWith (· &&& ·) v e.config.mask
    let changed := ∀ old, e.lastValue = some old → masked r.bytes ≠ masked old
    let taken := { e with outstanding := none, overrun := 0 }
    let read := d.setPoll bank k (some { taken with lastValue := some r.bytes, failing := false })
    (e.outstanding ≠ some h → takePollResult bank k h r d = d) ∧
    (e.outstanding = some h → d.schedule.active ≠ bank →
      takePollResult bank k h r d = d.setPoll bank k (some { e with outstanding := none })) ∧
    (e.outstanding = some h → d.schedule.active = bank → r.outcome = .ok → e.config.policy = .onChange → changed →
      takePollResult bank k h r d =
        post (.change bank k e.config.target (d.entry e.config.target).label e.lastValue r.bytes) read) ∧
    (e.outstanding = some h → d.schedule.active = bank → r.outcome = .ok →
      (e.config.policy = .failOnly ∨ (e.config.policy = .onChange ∧ ¬ changed)) → takePollResult bank k h r d = read) ∧
    (e.outstanding = some h → d.schedule.active = bank → r.outcome = .ok → e.config.policy = .every →
      takePollResult bank k h r d = post (.sample bank k r.bytes) read) ∧
    (e.outstanding = some h → d.schedule.active = bank → r.outcome ≠ .ok → e.failing = true →
      takePollResult bank k h r d = d.setPoll bank k (some taken)) ∧
    (e.outstanding = some h → d.schedule.active = bank → r.outcome ≠ .ok → e.failing = false →
      takePollResult bank k h r d = post (.pollFailed bank k r.outcome) (d.setPoll bank k (some { taken with failing := true })))

/-! ## Segments: requests (03, 04) -/

/-- CONFIGURE_SEGMENT stores the record of an OFF segment, or of one that is HELD and IDLE or BLOCKED with no reception in progress, and
enables, keeps or disables it; otherwise it is refused (R60, R61, R117, R118). -/
def Obligations.ConfigureEnablesKeepsOrDisables : Prop :=
  ∀ (s : State) (tag en stall own bc sw swAddr : Byte) (seg : SegId) (speed : Speed) (o : Outbound), accepts s.dev 8 o = true →
    let c : Instr := .configureSegment tag [byte seg.val, en, speed.code, stall, own, bc, sw, swAddr]
    let g := s.dev.seg seg
    let inRange := 1 ≤ stall.toNat ∧ stall.toNat ≤ 100 ∧ (own = 0#8 ∨ (0x08 ≤ own.toNat ∧ own.toNat ≤ 0x77)) ∧ 1 ≤ swAddr.toNat ∧
      swAddr.toNat ≤ 0x7F ∧ (own = 0#8 ∨ own ≠ swAddr)
    let may := (g.state = .off ∨ (g.held = true ∧ (g.state = .idle ∨ g.state = .blocked))) ∧ g.reception.inProgress = false ∧
      (en ≠ 0#8 ∨ (g.urgent = [] ∧ g.normal = []))
    let ownTaken := own ≠ 0#8 ∧
      ∃ i, (s.dev.entry i).presence ≠ .vacant ∧ (s.dev.entry i).segment = seg ∧ (s.dev.entry i).address = own.setWidth 7
    let config : SegConfig := ⟨en != 0#8, speed, stall.toNat, own.setWidth 7, bc != 0#8, sw != 0#8, swAddr.setWidth 7⟩
    (¬ inRange → exec c s = replyTo s 0xA0#8 tag [0x04#8] (found o s.dev)) ∧
    (inRange → ¬ may → exec c s = replyTo s 0xA0#8 tag [0x02#8] (found o s.dev)) ∧
    (inRange → may → ownTaken → exec c s = replyTo s 0xA0#8 tag [0x0A#8] (found o s.dev)) ∧
    (inRange → may → ¬ ownTaken → ∃ g' : Segment,
      exec c s = replyTo s 0xA0#8 tag [0x00#8, g'.state.code] ((found o s.dev).updSeg seg fun _ => g') ∧
      g'.config = config ∧ g'.urgent = g.urgent ∧ g'.normal = g.normal ∧ g'.streak = g.streak ∧ g'.held = g.held ∧
      g'.fault = g.fault ∧ g'.work = g.work ∧ g'.alrLow = g.alrLow ∧
      (en = 0#8 → g'.state = .off ∧ g'.owner = .nobody ∧ g'.sweep = .idle ∧ g'.emptySweeps = 0) ∧
      (en ≠ 0#8 → g.state = .off → g'.state = .idle ∧ g'.owner = .taken ∧ g'.freeCount = false) ∧
      (en ≠ 0#8 → g.state ≠ .off → g'.state = g.state ∧ g'.owner = g.owner ∧ g'.freeCount = g.freeCount) ∧
      (en ≠ 0#8 → sw = 0#8 → g'.sweep = .idle ∧ g'.emptySweeps = 0) ∧
      (en ≠ 0#8 → sw ≠ 0#8 → g.sweep = .idle → g.alrLow = true → g'.sweep = .pending) ∧
      (en ≠ 0#8 → sw ≠ 0#8 → (g.sweep ≠ .idle ∨ g.alrLow = false) → g'.sweep = g.sweep ∧ g'.emptySweeps = g.emptySweeps))

/-- SEGMENT_STATUS shows the segment as it stands, with the sub-state of its transaction (R64), and READ_FAULT its fault record, which a set
clear flag empties (R62, R83). What SEGMENT_STATUS shows is the device after the note of the wire that the row carries, the model's choice
(logs 7 and 32); the bytes of absent fields are sent as 0 (log 12). -/
def Obligations.SegmentStatusAndFaultAreShown : Prop :=
  (∀ (s : State) (wire : Option WireNote) (tag : Byte) (seg : SegId) (o : Outbound), accepts s.dev 1 o = true →
    let d := takeNote wire s.dev
    let g := d.seg seg
    let running := match g.work with
      | .nothing => [0#8, 0#8, 0#8, 0#8]
      | .conversation h _ => 1#8 :: h.bytes
      | .sweep _ => [2#8, 0#8, 0#8, 0#8]
    exec (.segmentStatus wire tag [byte seg.val]) s =
      replyTo s 0xA1#8 tag
        ([0x00#8, g.state.code, flagByte g.fromBlocked, flagByte g.config.enabled, g.config.speed.code, byte g.config.stallLimit,
          g.config.ownAddress.setWidth 8, flagByte g.config.broadcast, flagByte g.config.sweepEnable,
          g.config.sweepAddress.setWidth 8, g.owner.code, subState seg d] ++ running ++
          [flagByte (decide (g.sweep = .pending)), if g.alrLow then 0#8 else 1#8, flagByte g.fault.isSome,
            flagByte g.reception.inProgress, byte g.urgent.length, byte g.normal.length, byte g.streak, flagByte g.held])
        (found o d)) ∧
  (∀ (d : Device) (seg : SegId),
    let at' := fun p : BusPos => (d.seg seg).work = .sweep p ∨
      ∃ h ctx r pec, (d.seg seg).work = .conversation h ctx ∧ ctx.phase = .transaction r pec p
    ((∀ p, ¬ at' p) → subState seg d = 0#8) ∧ (at' .waitFree → subState seg d = 1#8) ∧ (at' .start → subState seg d = 2#8) ∧
    (at' .address → subState seg d = 3#8) ∧
    (∀ i t, at' (.data i) → d.txn seg = some t → subState seg d = if t.reads then 5#8 else 4#8) ∧
    (∀ i, at' (.checkByte i) → subState seg d = 6#8) ∧ (∀ i acked, at' (.stop i acked) → subState seg d = 7#8)) ∧
  ∀ (s : State) (tag clear : Byte) (seg : SegId) (o : Outbound), accepts s.dev 2 o = true →
    let c : Instr := .readFault tag [byte seg.val, clear]
    let after := if clear = 0#8 then found o s.dev else (found o s.dev).updSeg seg fun g => { g with fault := none }
    ((s.dev.seg seg).fault = none → exec c s = replyTo s 0xA6#8 tag ([0x00#8, 0#8] ++ List.replicate 8 0#8) after) ∧
    (∀ f h i n, (s.dev.seg seg).fault = some f → f.running = some (h, i) → f.byteIndex = some n →
      exec c s = replyTo s 0xA6#8 tag ([0x00#8, flagByte true, f.kind.code, 3#8] ++ h.bytes ++ [byte i, byte n, byte f.further]) after) ∧
    (∀ f h i, (s.dev.seg seg).fault = some f → f.running = some (h, i) → f.byteIndex = none →
      exec c s = replyTo s 0xA6#8 tag ([0x00#8, flagByte true, f.kind.code, 1#8] ++ h.bytes ++ [byte i, 0#8, byte f.further]) after) ∧
    (∀ f n, (s.dev.seg seg).fault = some f → f.running = none → f.byteIndex = some n →
      exec c s = replyTo s 0xA6#8 tag [0x00#8, flagByte true, f.kind.code, 2#8, 0#8, 0#8, 0#8, 0#8, byte n, byte f.further] after) ∧
    (∀ f, (s.dev.seg seg).fault = some f → f.running = none → f.byteIndex = none →
      exec c s = replyTo s 0xA6#8 tag [0x00#8, flagByte true, f.kind.code, 0#8, 0#8, 0#8, 0#8, 0#8, 0#8, byte f.further] after)

/-- HOLD_SEGMENT sets HELD (R53); RELEASE_SEGMENT clears it, which makes a selection at once, and changes nothing on a segment that is not
HELD (R54, R47); FLUSH_SEGMENT ends every conversation that waits, CANCELLED, and empties both lists (R55). The handle bytes of a running
indication without a handle are sent as 0, the model's reading (log 12). -/
def Obligations.HoldReleaseAndFlush : Prop :=
  (∀ (s : State) (tag : Byte) (seg : SegId) (o : Outbound), accepts s.dev 1 o = true →
    let running := match (s.dev.seg seg).work with
      | .nothing => [0#8, 0#8, 0#8, 0#8]
      | .conversation h _ => 1#8 :: h.bytes
      | .sweep _ => [2#8, 0#8, 0#8, 0#8]
    exec (.holdSegment tag [byte seg.val]) s =
      replyTo s 0xA2#8 tag (0x00#8 :: running) ((found o s.dev).updSeg seg fun g => { g with held := true }) ∧
    ((s.dev.seg seg).held = true → exec (.releaseSegment tag [byte seg.val]) s =
      replyTo s 0xA3#8 tag [0x00#8] (makeSelection seg ((found o s.dev).updSeg seg fun g => { g with held := false }))) ∧
    ((s.dev.seg seg).held = false → exec (.releaseSegment tag [byte seg.val]) s = replyTo s 0xA3#8 tag [0x00#8] (found o s.dev))) ∧
  ∀ (s : State) (tag : Byte) (seg : SegId) (o : Outbound), accepts s.dev 1 o = true →
    let g := s.dev.seg seg
    ∃ d, exec (.flushSegment tag [byte seg.val]) s = replyTo s 0xA5#8 tag [0x00#8, byte (g.urgent.length + g.normal.length)] d ∧
      (d.seg seg).urgent = [] ∧ (d.seg seg).normal = [] ∧ (d.seg seg).streak = 0 ∧ (d.seg seg).work = g.work ∧
      (d.seg seg).state = g.state ∧ (d.seg seg).held = g.held ∧ (∀ j, j ≠ seg → d.seg j = s.dev.seg j) ∧
      (∀ h, h ∈ g.urgent ++ g.normal → (s.dev.slot h.slot).conv.origin = .host → (s.dev.slot h.slot).conv.mode ≠ some .fire →
        d.slot h.slot = Claims.heldDone (s.dev.slot h.slot) ⟨.cancelled, 0, some 0, [], none⟩) ∧
      (((g.urgent ++ g.normal).map Handle.slot).Nodup → ∀ h, h ∈ g.urgent ++ g.normal →
        Claims.endedWith (s.dev.slot h.slot) ⟨.cancelled, 0, some 0, [], none⟩ (d.slot h.slot)) ∧
      (∀ k, (∀ h, h ∈ g.urgent ++ g.normal → h.slot ≠ k) → d.slot k = s.dev.slot k)

/-- RESET_SEGMENT aborts what runs, with its address event if the acknowledge bit was sampled, clears the fault record, disarms the sweep,
abandons a reception and starts recovery; the lists, the streak, HELD and the configuration stay (R80). How far the transaction has come is
the note of the wire that the row carries, the model's choice (logs 7 and 32); the handle bytes of a running indication without a handle are sent as 0
(log 12). -/
def Obligations.ResetSegmentForcesRecovery : Prop :=
  ∀ (s : State) (wire : Option WireNote) (tag : Byte) (seg : SegId) (o : Outbound), accepts s.dev 1 o = true →
    let c : Instr := .resetSegment wire tag [byte seg.val]
    let g := s.dev.seg seg
    let running := match g.work with
      | .nothing => [0#8, 0#8, 0#8, 0#8]
      | .conversation h _ => 1#8 :: h.bytes
      | .sweep _ => [2#8, 0#8, 0#8, 0#8]
    (g.state = .off → exec c s = replyTo s 0xA4#8 tag [0x0F#8] (found o (takeNote wire s.dev))) ∧
    (g.state ≠ .off → ∃ d, exec c s = replyTo s 0xA4#8 tag (0x00#8 :: running) d ∧
      (d.seg seg).state = .recovering ∧ (d.seg seg).pulses = 0 ∧ (d.seg seg).work = .nothing ∧ (d.seg seg).fault = none ∧
      (d.seg seg).sweep = .idle ∧ (d.seg seg).emptySweeps = 0 ∧ (d.seg seg).reception = .nothing ∧
      ((d.seg seg).fromBlocked = true ↔ (g.state = .blocked ∨ (g.state = .recovering ∧ g.fromBlocked = true))) ∧
      (d.seg seg).urgent = g.urgent ∧ (d.seg seg).normal = g.normal ∧ (d.seg seg).streak = g.streak ∧
      (d.seg seg).held = g.held ∧ (d.seg seg).config = g.config ∧
      (g.reception.writes = true → d.inbox = { s.dev.inbox with reserved := s.dev.inbox.reserved - 1 }) ∧
      (g.reception.writes = false → d.inbox = s.dev.inbox) ∧
      (∀ j, j ≠ seg → d.seg j = (takeNote wire s.dev).seg j) ∧
      (∀ k, (∀ h ctx, g.work = .conversation h ctx → h.slot ≠ k) → d.slot k = s.dev.slot k) ∧
      (∀ h ctx, g.work = .conversation h ctx → Claims.endedWith (s.dev.slot h.slot)
        ⟨.segmentReset, ctx.completed, some ctx.completed, ctx.readData, ctx.lastValue⟩ (d.slot h.slot)) ∧
      let noted := takeNote wire s.dev
      (∀ h ctx, (noted.seg seg).work = .conversation h ctx →
        let sampled := match ctx.phase with
          | .transaction _ _ pos => Claims.sampled pos
          | _ => none
        Claims.endedAfterEvent (s.dev.conv h).target sampled h.slot
          ⟨.segmentReset, ctx.completed, some ctx.completed, ctx.readData, ctx.lastValue⟩ noted d) ∧
      ((∀ h ctx, g.work ≠ .conversation h ctx) →
        d.directory = s.dev.directory ∧ d.schedule = s.dev.schedule ∧ d.reports = s.dev.reports))

/-! ## Segments: selection and transactions (03, 04, 05, 06) -/

/-- A ready engine starts a pending sweep before any conversation (R48, R119); else it takes the URGENT head, unless four have gone ahead
of a waiting NORMAL one (R49), and the conversation is RUNNING with its first step begun (R50, R84). Otherwise nothing is selected. The
selection that an event of R47 makes is the same one; that the rows SWEEP_START and CONVERSATION_START give it as commands is the model's
reading (log 4), and that a row does nothing where nothing can be selected, or where the other row is due, is its choice (log 6). -/
def Obligations.SelectionFollowsTheArbiter : Prop :=
  ∀ (s : State) (seg : SegId),
    let g := s.dev.seg seg
    let ready := g.state = .idle ∧ g.held = false ∧ g.owner = .free
    let begun := fun (h : Handle) (phase : Phase) (urgent normal : List Handle) (streak : Nat) =>
      (.next { s with dev := (s.dev.updSlot h.slot fun x => { x with state := .running }).updSeg seg fun g =>
        { g with
          state := .active
          work := .conversation h { Context.initial with phase := phase }
          urgent := urgent
          normal := normal
          streak := streak } } : Answer)
    let first := fun (h : Handle) (phase : Phase) =>
      let v := (s.dev.slot h.slot).conv
      v.stop = none ∧ ∃ step, v.steps[0]? = some step ∧
        match step with
        | .pause n => phase = .pause n
        | _ => phase = .transaction false (targetPec s.dev v.target) .start
    (g.work ≠ .nothing → makeSelection seg s.dev = s.dev) ∧
    (g.work = .nothing → g.sweep = .pending → exec (.sweepStart seg) s = .next { s with dev := makeSelection seg s.dev }) ∧
    (g.work = .nothing → g.sweep ≠ .pending → exec (.conversationStart seg) s = .next { s with dev := makeSelection seg s.dev }) ∧
    ((¬ ready ∨ g.sweep ≠ .pending) → exec (.sweepStart seg) s = .next s) ∧
    (ready → g.sweep = .pending → exec (.sweepStart seg) s = .next { s with dev := s.dev.updSeg seg fun g =>
      { g with state := .active, sweep := .running, work := .sweep .start } }) ∧
    ((¬ ready ∨ g.sweep = .pending ∨ (g.urgent = [] ∧ g.normal = [])) → exec (.conversationStart seg) s = .next s) ∧
    (∀ u us phase, ready → g.sweep ≠ .pending → g.urgent = u :: us → g.normal = [] → first u phase →
      exec (.conversationStart seg) s = begun u phase us [] 0) ∧
    (∀ u us, ∀ phase, ready → g.sweep ≠ .pending → g.urgent = u :: us → g.normal ≠ [] → g.streak < 4 → first u phase →
      exec (.conversationStart seg) s = begun u phase us g.normal (g.streak + 1)) ∧
    (∀ n ns, ∀ phase, ready → g.sweep ≠ .pending → g.normal = n :: ns → (g.urgent = [] ∨ 4 ≤ g.streak) → first n phase →
      exec (.conversationStart seg) s = begun n phase g.urgent ns 0)

/-- What the engine drives in a transaction, and what the target's answers make of it (R65, R66, R67, R69, R70, R71, R94). -/
def Obligations.TransactionOutcomeFollowsTheAnswers : Prop :=
  ∀ (a : Addr) (pec : Bool) (received : List Byte),
    (∀ (c : Option Byte) (bytes : List Byte) (j tol readHalf : Bool),
      let l := addressByte a false :: (c.toList ++ bytes)
      (txnOf a readHalf pec (.write c bytes j tol)).wire a = if pec then l ++ [crc8 l] else l) ∧
    (∀ (n : Nat) (j : Bool), (txnOf a false pec (.read none n j)).wire a = [addressByte a true] ∧
      ∀ i, (txnOf a false pec (.read none n j)).acks received i = decide (i + 1 < n + if pec then 1 else 0)) ∧
    (∀ (readHalf : Bool) (step : Step), (txnOf a readHalf pec step).judge a (some 0) received = (.nakAddress, [])) ∧
    (∀ (r j readHalf : Bool), (txnOf a readHalf pec (.quick r j)).judge a none received = (.ok, [])) ∧
    (∀ (c : Option Byte) (bytes : List Byte) (j tol readHalf : Bool),
      let t := txnOf a readHalf pec (.write c bytes j tol)
      let n := c.toList.length + bytes.length
      t.judge a none received = (.ok, []) ∧
      (∀ k, 1 ≤ k → k ≤ n → t.judge a (some k) received = (.nakData, [])) ∧
      (pec = true → t.judge a (some (n + 1)) received = (.pecMismatch, []))) ∧
    (∀ (c : Byte) (step : Step), ((∃ n j, step = .read (some c) n j) ∨ (∃ j, step = .readBlock c j) ∨
        ∃ n mask want interval limit, step = .waitUntil c n mask want interval limit) →
      (txnOf a false pec step).wire a = [addressByte a false, c] ∧ (txnOf a true pec step).wire a = [addressByte a true] ∧
      (txnOf a false pec step).judge a none received = (.ok, []) ∧ (txnOf a false pec step).judge a (some 1) received = (.nakData, [])) ∧
    (∀ (n : Nat) (j : Bool), n ≤ received.length → pec = false →
      (txnOf a false pec (.read none n j)).judge a none received = (.ok, received.take n)) ∧
    (∀ (n : Nat) (j : Bool) (check : Byte), received.length = n → pec = true →
      (check = crc8 (addressByte a true :: received) →
        (txnOf a false pec (.read none n j)).judge a none (received ++ [check]) = (.ok, received)) ∧
      (check ≠ crc8 (addressByte a true :: received) →
        (txnOf a false pec (.read none n j)).judge a none (received ++ [check]) = (.pecMismatch, []))) ∧
    (∀ (c : Byte) (n : Nat) (step : Step), ((∃ j, step = .read (some c) n j) ∨
        ∃ mask want interval limit, step = .waitUntil c n mask want interval limit) →
      (∀ i, (txnOf a true pec step).acks received i = decide (i + 1 < n + if pec then 1 else 0)) ∧
      (n ≤ received.length → pec = false → (txnOf a true pec step).judge a none received = (.ok, received.take n)) ∧
      ∀ check : Byte, received.length = n → pec = true →
        (check = crc8 ([addressByte a false, c, addressByte a true] ++ received) →
          (txnOf a true pec step).judge a none (received ++ [check]) = (.ok, received)) ∧
        (check ≠ crc8 ([addressByte a false, c, addressByte a true] ++ received) →
          (txnOf a true pec step).judge a none (received ++ [check]) = (.pecMismatch, []))) ∧
    (∀ (c count : Byte) (j : Bool), (count = 0#8 ∨ 32 < count.toNat) →
      (txnOf a true pec (.readBlock c j)).judge a none (count :: received) = (.badCount, [])) ∧
    (∀ (c count : Byte) (j : Bool), 1 ≤ count.toNat → count.toNat ≤ 32 → count.toNat ≤ received.length → pec = false →
      (txnOf a true pec (.readBlock c j)).judge a none (count :: received) = (.ok, received.take count.toNat)) ∧
    ∀ (c count : Byte) (j : Bool) (check : Byte), 1 ≤ count.toNat → count.toNat ≤ 32 → received.length = count.toNat → pec = true →
      let span := [addressByte a false, c, addressByte a true, count] ++ received
      (check = crc8 span → (txnOf a true pec (.readBlock c j)).judge a none (count :: (received ++ [check])) = (.ok, received)) ∧
      (check ≠ crc8 span → (txnOf a true pec (.readBlock c j)).judge a none (count :: (received ++ [check])) = (.pecMismatch, []))

/-- The end of a transaction on the wire: its STOP is placed, the address event is sent, the outcome is classified (R86, R9); a sweep ends
with a responder or empty (R120, R121), the responder looked up by segment and address (R13). The row includes the STOP, which leaves the bus
taken with the free-time count running (R63, R68; the model's reading, log 9); a nakAt that no target can give is read as none (log 31). With
nothing on the wire the command does nothing (log 6). -/
def Obligations.TransactionEndIsJudgedAndActedOn : Prop :=
  ∀ (s : State) (seg : SegId) (nakAt : Option Nat) (received : List Byte),
    let g := s.dev.seg seg
    let c : Instr := .transactionEnd seg nakAt received
    let stopped := s.dev.updSeg seg fun g => { g with owner := .taken, freeCount := true }
    let ended := fun (sweep : Sweep) (count : Nat) (d : Device) => d.updSeg seg fun g =>
      { g with state := .idle, work := .nothing, owner := .taken, freeCount := true, sweep := sweep, emptySweeps := count }
    (g.work = .nothing → exec c s = .next s) ∧
    (∀ h ctx readHalf pec pos step, g.work = .conversation h ctx → ctx.phase = .transaction readHalf pec pos → pos ≠ .waitFree →
      (s.dev.conv h).steps[ctx.current]? = some step →
      let a := targetAddress s.dev (s.dev.conv h).target
      let r := (txnOf a readHalf pec step).judge a nakAt received
      let told := addressEvent (s.dev.conv h).target (some (nakAt != some 0)) stopped
      exec c s = .next { s with dev := classify seg h ctx readHalf step r.1 r.2 told }) ∧
    (∀ pos, g.work = .sweep pos → pos ≠ .waitFree → nakAt = some 0 →
      (g.alrLow = false → exec c s = .next { s with dev := ended .idle 0 s.dev }) ∧
      (g.alrLow = true → g.emptySweeps + 1 < 8 → exec c s = .next { s with dev := ended .holdoff (g.emptySweeps + 1) s.dev }) ∧
      (g.alrLow = true → 8 ≤ g.emptySweeps + 1 → exec c s = .next { s with dev := ended .stuck 8 (post (.alertStuck seg) s.dev) })) ∧
    (∀ pos b rest, g.work = .sweep pos → pos ≠ .waitFree → nakAt = none → received = b :: rest →
      let a : Addr := (b >>> 1).setWidth 7
      let next := if g.alrLow = true ∧ g.config.sweepEnable = true then Sweep.pending else Sweep.idle
      ((∀ i, (s.dev.entry i).presence ≠ .vacant → (s.dev.entry i).segment = seg → (s.dev.entry i).address ≠ a) →
        exec c s = .next { s with dev := ended next 0 (post (.alertUnknown seg a) s.dev) }) ∧
      (∀ i, (s.dev.entry i).presence ≠ .vacant → (s.dev.entry i).segment = seg → (s.dev.entry i).address = a →
        (∀ j, j < i → (s.dev.entry j).presence ≠ .vacant → (s.dev.entry j).segment = seg → (s.dev.entry j).address ≠ a) →
        exec c s = .next { s with dev := ended next 0 (ackEvent i (post (.alert seg i (s.dev.entry i).label a) s.dev)) }))

/-- What each class of outcome leads to: the next half, the next step, the end, a retry gap, an interval, or the final outcome (R87, R88,
R92, R93, R95, R96, R100). The next unit starts at once if the bus is free and waits in WAIT_FREE if it is not (R64); after a repeated START
no free-time count runs, which the row of the transaction's end includes (log 9); a rollback returns the read data to the length that the
model keeps from the unit's start (log 17). -/
def Obligations.OutcomeClassDecidesWhatFollows : Prop :=
  ∀ (d : Device) (seg : SegId) (h : Handle) (ctx : Context) (step : Step) (bytes : List Byte),
    let v := d.conv h
    let pec := targetPec d v.target
    let withContext := fun ctx : Context => d.updSeg seg fun g => { g with work := .conversation h ctx }
    let restarted := fun ctx : Context => d.updSeg seg fun g => { g with work := .conversation h ctx, freeCount := false }
    let ended := fun (ctx : Context) (o : ConvOutcome) (failing : Option Nat) =>
      (finish h.slot ⟨o, ctx.completed, failing, ctx.readData, ctx.lastValue⟩ d).updSeg seg fun g =>
        { g with work := .nothing, state := .idle }
    -- The step that follows is a step of a unit, a PAUSE, or a stop; none ends the conversation.
    let begun := fun ctx : Context => withContext { ctx with
      unitStart := ctx.current, retryCount := 0, unitData := ctx.readData.length,
      phase := .transaction false pec (if (d.seg seg).owner = .free then .start else .waitFree) }
    let follows := fun (t : Device) (ctx : Context) =>
      (v.steps[ctx.current]? = none → t = ended ctx .ok none) ∧
      (∀ n, v.steps[ctx.current]? = some (.pause n) → v.stop = none → t = withContext { ctx with phase := .pause n }) ∧
      (∀ x, v.steps[ctx.current]? = some x → (∀ n, x ≠ .pause n) → v.stop = none → t = begun ctx) ∧
      (∀ x cause, v.steps[ctx.current]? = some x → v.stop = some cause → t = ended ctx cause.outcome (some ctx.completed))
    let done := { ctx with
      readData := ctx.readData ++ bytes, stepData := [], completed := ctx.completed + 1, current := ctx.current + 1, attempt := 0 }
    let rolledBack := { ctx with
      completed := ctx.unitStart, current := ctx.unitStart, readData := ctx.readData.take ctx.unitData, stepData := [] }
    let waits := match step with
      | .waitUntil .. => True
      | _ => False
    (step.twoHalves = true → classify seg h ctx false step .ok bytes d = restarted { ctx with phase := .transaction true pec .start }) ∧
    (∀ r, (step.twoHalves = true → r = true) → ¬ waits →
      (∀ x, step.joined = true → v.steps[ctx.current + 1]? = some x →
        classify seg h ctx r step .ok bytes d = restarted { done with phase := .transaction false pec .start }) ∧
      ((step.joined = false ∨ v.steps[ctx.current + 1]? = none) → follows (classify seg h ctx r step .ok bytes d) done)) ∧
    (∀ r, step.tolerates = true → classify seg h ctx r step .nakData bytes d = classify seg h ctx r step .ok [] d) ∧
    (∀ r, step.tolerates = false → classify seg h ctx r step .nakData bytes d = ended ctx .nakData (some ctx.current)) ∧
    (step.tolerates = true ↔ ∃ c data j, step = .write c data j true) ∧
    (∀ r, classify seg h ctx r step .badCount bytes d = ended ctx .badCount (some ctx.current)) ∧
    (∀ r, v.stop = none → ctx.retryCount < v.retry.retries →
      classify seg h ctx r step .nakAddress bytes d =
        withContext { rolledBack with retryCount := ctx.retryCount + 1, phase := .retryGap v.retry.gap } ∧
      classify seg h ctx r step .pecMismatch bytes d =
        withContext { rolledBack with retryCount := ctx.retryCount + 1, phase := .retryGap v.retry.gap }) ∧
    (∀ r, (v.stop ≠ none ∨ v.retry.retries ≤ ctx.retryCount) →
      classify seg h ctx r step .nakAddress bytes d = ended ctx .nakAddress (some ctx.current) ∧
      classify seg h ctx r step .pecMismatch bytes d = ended ctx .pecMismatch (some ctx.current)) ∧
    (∀ cmd n mask want interval limit, step = .waitUntil cmd n mask want interval limit →
      let meets := List.zipWith (· &&& ·) bytes mask = List.zipWith (· &&& ·) want mask
      let compared := { ctx with attempt := ctx.attempt + 1, lastValue := some bytes, stepData := [] }
      (meets → follows (classify seg h ctx true step .ok bytes d)
        { compared with completed := ctx.completed + 1, current := ctx.current + 1, attempt := 0 }) ∧
      (¬ meets → limit ≤ ctx.attempt + 1 → classify seg h ctx true step .ok bytes d = ended compared .conditionTimeout (some ctx.current)) ∧
      (¬ meets → ctx.attempt + 1 < limit → v.stop = none →
        classify seg h ctx true step .ok bytes d = withContext { compared with phase := .interval interval }) ∧
      (∀ cause, ¬ meets → ctx.attempt + 1 < limit → v.stop = some cause →
        classify seg h ctx true step .ok bytes d = ended compared cause.outcome (some ctx.completed)))

/-- A loss of arbitration: the bus is taken; the unit is to be repeated while the budget lasts, else ARB_EXHAUSTED, and a pending stop
request ends the conversation (R72, R90, R91, R100); a sweep is pending again (R122). A loss after the address byte gives an ACK event (R9).
With no work the command does nothing (log 6); the read data returns to the length that the model keeps from the unit's start (log 17). -/
def Obligations.ArbitrationLossRepeatsOrEnds : Prop :=
  ∀ (s : State) (seg : SegId) (k : Nat),
    let g := s.dev.seg seg
    let c : Instr := .arbLost seg k
    (g.work = .nothing → exec c s = .next s) ∧
    (∀ pos, g.work = .sweep pos → pos ≠ .waitFree → k = 0 → exec c s = .next { s with dev := s.dev.updSeg seg fun g =>
      { g with state := .idle, work := .nothing, owner := .taken, freeCount := false, sweep := .pending } }) ∧
    (∀ h ctx readHalf pec pos step, g.work = .conversation h ctx → ctx.phase = .transaction readHalf pec pos → pos ≠ .waitFree →
      (s.dev.conv h).steps[ctx.current]? = some step →
      k < (txnOf (targetAddress s.dev (s.dev.conv h).target) readHalf pec step).sent →
      let v := s.dev.conv h
      let event := addressEvent v.target (if k = 0 then none else some true)
        (s.dev.updSeg seg fun g => { g with owner := .taken, freeCount := false })
      let ended := fun (o : ConvOutcome) (failing : Nat) =>
        (.next { s with dev := (finish h.slot ⟨o, ctx.completed, some failing, ctx.readData, ctx.lastValue⟩ event).updSeg seg fun g =>
          { g with work := .nothing, state := .idle } } : Answer)
      (v.stop = none → ctx.losses < v.retry.budget → ∃ pec', exec c s = .next { s with dev := event.updSeg seg fun g =>
        { g with work := .conversation h { ctx with
          losses := ctx.losses + 1, completed := ctx.unitStart, current := ctx.unitStart,
          readData := ctx.readData.take ctx.unitData, stepData := [], phase := .transaction false pec' .waitFree } } }) ∧
      (v.stop = none → v.retry.budget ≤ ctx.losses → exec c s = ended .arbExhausted ctx.current) ∧
      (∀ cause, v.stop = some cause → exec c s = ended cause.outcome ctx.completed))

/-- The timed waits expire: the unit is repeated after a retry gap, the next attempt begins after an interval, and a PAUSE is completed
(R88, R89, R95, R97); a transaction waits for the bus in WAIT_FREE if it is not free (R64); a conversation that ends returns the engine to
IDLE, which makes a selection (R47). An expiry in another phase does nothing, the model's choice (log 6); unitData is the length that the
model keeps for a rollback (log 17). -/
def Obligations.TimedWaitsExpireIntoTheNextAction : Prop :=
  ∀ (s : State) (seg : SegId) (h : Handle) (ctx : Context), (s.dev.seg seg).work = .conversation h ctx →
    let g := s.dev.seg seg
    let v := s.dev.conv h
    let pos := if g.owner = .free then BusPos.start else BusPos.waitFree
    let begins := Phase.transaction false (targetPec s.dev v.target) pos
    let running := fun ctx : Context =>
      (.next { s with dev := s.dev.updSeg seg fun g => { g with work := .conversation h ctx } } : Answer)
    let ended := fun (n : Nat) (o : ConvOutcome) (failing : Option Nat) =>
      (.next { s with dev := makeSelection seg ((finish h.slot ⟨o, n, failing, ctx.readData, ctx.lastValue⟩ s.dev).updSeg seg fun g =>
        { g with work := .nothing, state := .idle }) } : Answer)
    (∀ ms, ctx.phase = .retryGap ms →
      (v.stop = none → exec (.retryGapExpiry seg) s = running { ctx with phase := begins }) ∧
      (∀ cause, v.stop = some cause → exec (.retryGapExpiry seg) s = ended ctx.completed cause.outcome (some ctx.completed))) ∧
    (∀ ms, ctx.phase = .interval ms →
      (v.stop = none → exec (.intervalExpiry seg) s = running { ctx with
        unitStart := ctx.current, retryCount := 0, unitData := ctx.readData.length, phase := begins }) ∧
      (∀ cause, v.stop = some cause → exec (.intervalExpiry seg) s = ended ctx.completed cause.outcome (some ctx.completed))) ∧
    (∀ ms, ctx.phase = .pause ms →
      let done := { ctx with stepData := [], completed := ctx.completed + 1, current := ctx.current + 1, attempt := 0 }
      (v.steps[ctx.current + 1]? = none → exec (.pauseExpiry seg) s = ended (ctx.completed + 1) .ok none) ∧
      (∀ n, v.steps[ctx.current + 1]? = some (.pause n) → v.stop = none →
        exec (.pauseExpiry seg) s = running { done with phase := .pause n }) ∧
      (∀ x, v.steps[ctx.current + 1]? = some x → (∀ n, x ≠ .pause n) → v.stop = none →
        exec (.pauseExpiry seg) s = running { done with
          unitStart := ctx.current + 1, retryCount := 0, unitData := ctx.readData.length, phase := begins }) ∧
      (∀ x cause, v.steps[ctx.current + 1]? = some x → v.stop = some cause →
        exec (.pauseExpiry seg) s = ended (ctx.completed + 1) cause.outcome (some (ctx.completed + 1)))) ∧
    ((∀ ms, ctx.phase ≠ .retryGap ms) → exec (.retryGapExpiry seg) s = .next s) ∧
    ((∀ ms, ctx.phase ≠ .interval ms) → exec (.intervalExpiry seg) s = .next s) ∧
    ((∀ ms, ctx.phase ≠ .pause ms) → exec (.pauseExpiry seg) s = .next s)

/-! ## Segments: faults, recovery, the bus (04) -/

/-- What a fault leaves of a segment: the record takes it if it is empty and counts it otherwise; work and reception are gone; RECOVERING
with the flag clear and no pulse issued (R74, R75, R76, R82). -/
def Claims.faulted (g g' : Segment) (kind : FaultKind) (running : Option (Handle × Nat)) (byteIndex : Option Nat) : Prop :=
  g'.state = .recovering ∧ g'.fromBlocked = false ∧ g'.pulses = 0 ∧ g'.work = .nothing ∧ g'.reception = .nothing ∧
  (g.fault = none → g'.fault = some ⟨kind, running, byteIndex, 0⟩) ∧
  (∀ f, g.fault = some f → g'.fault = some { f with further := min (f.further + 1) 255 }) ∧
  g'.urgent = g.urgent ∧ g'.normal = g.normal ∧ g'.streak = g.streak ∧ g'.held = g.held ∧ g'.config = g.config

/-- A clock stall and a bus fault end the engine's transaction, with its address event if the acknowledge bit was sampled, enter the fault
record and start recovery (R74, R75, R82); a sweep ends without a result (R122); the line watch of an idle engine ends nothing (R75); a stall
of a reception cuts it, and a line watch that runs fires after the cut (R76). With no reception in progress RECEPTION_STALL does nothing, the
model's choice (log 6). -/
def Obligations.StallsAndFaultsStartRecovery : Prop :=
  ∀ (s : State) (seg : SegId),
    let g := s.dev.seg seg
    let ends := fun (c : Instr) (kind : FaultKind) (o : ConvOutcome) (pos : BusPos) =>
      (∀ h ctx, g.work = .conversation h ctx → ∃ d, exec c s = .next { s with dev := d } ∧
        Claims.faulted g (d.seg seg) kind (some (h, ctx.current)) (posByteIndex pos) ∧
        Claims.endedWith (s.dev.slot h.slot) ⟨o, ctx.completed, some ctx.current, ctx.readData, ctx.lastValue⟩ (d.slot h.slot) ∧
        Claims.endedAfterEvent (s.dev.conv h).target (Claims.sampled pos) h.slot
          ⟨o, ctx.completed, some ctx.current, ctx.readData, ctx.lastValue⟩ s.dev d) ∧
      (∀ p, g.work = .sweep p → ∃ d, exec c s = .next { s with dev := d } ∧
        Claims.faulted g (d.seg seg) kind none (posByteIndex pos) ∧
        (d.seg seg).sweep = if g.alrLow = true ∧ g.config.sweepEnable = true then Sweep.pending else Sweep.idle)
    (∀ pos, s.dev.canBeAt seg pos = true → ends (.clockStall seg pos) .stallTimeout .stallTimeout pos) ∧
    (g.work.pos = some .start → ends (.busFault seg .atStart) .busFault .busFault .start) ∧
    (∀ i acked, s.dev.canBeAt seg (.stop i acked) = true → ends (.busFault seg (.atStop i acked)) .busFault .busFault (.stop i acked)) ∧
    (g.work.pos = some .waitFree → ends (.busFault seg .lineWatch) .busFault .busFault .waitFree) ∧
    (g.state = .idle → g.work = .nothing → g.held = false → g.owner = .taken →
      (g.sweep = .pending ∨ g.urgent ≠ [] ∨ g.normal ≠ []) →
      ∃ d, exec (.busFault seg .lineWatch) s = .next { s with dev := d } ∧ Claims.faulted g (d.seg seg) .busFault none none ∧
        (d.seg seg).sweep = g.sweep ∧ ∀ k, d.slot k = s.dev.slot k) ∧
    (g.reception.inProgress = false → exec (.receptionStall seg) s = .next s) ∧
    let cut := fun x : Inbox => (s.dev.updInbox fun _ => x).updSeg seg fun g => { g with reception := .nothing, ackDriven := false }
    (g.reception.inProgress = true → g.lineWatch = false → ∃ x, exec (.receptionStall seg) s = .next { s with dev := cut x } ∧
      x = if g.reception.writes then { s.dev.inbox with reserved := s.dev.inbox.reserved - 1 } else s.dev.inbox) ∧
    (g.reception.inProgress = true → g.lineWatch = true → ∃ d, exec (.receptionStall seg) s = .next { s with dev := d } ∧
      (d.seg seg).state = .recovering ∧ (d.seg seg).reception = .nothing ∧ (d.seg seg).fault.isSome = true ∧
      (d.seg seg).work = .nothing)

/-- The recovery sequence: how many pulses it issues and how it ends (R77), and what success and failure leave (R78, R118, R82). The
STOP of a successful recovery leaves the bus taken with the free-time count running, so this step selects nothing (R63, R77, R47); the
selection follows the free time, as OwnershipFollowsTheBus states. That the rows carry what the engine reads on the lines, that the pulse count stays
after a recovery, that the bus counts as taken until the free time is over, and that a failure leaves ownership and count are the model's
choices and readings (log 19). -/
def Obligations.RecoveryEndsIdleOrBlocked : Prop :=
  (∀ stop, recoveryEnds ⟨true, [], stop⟩ = some (0, decide (stop = .linesHigh))) ∧
  (∀ n stop, n < 9 → recoveryEnds ⟨false, List.replicate n .sdaLow ++ [.sdaHigh], stop⟩ = some (n + 1, decide (stop = .linesHigh))) ∧
  (∀ n stop, n < 9 → recoveryEnds ⟨false, List.replicate n .sdaLow ++ [.sclStuck], stop⟩ = some (n + 1, false)) ∧
  (∀ stop, recoveryEnds ⟨false, List.replicate 9 .sdaLow, stop⟩ = some (9, false)) ∧
  ∀ (s : State) (seg : SegId) (lines : RecoveryLines) (n : Nat), (s.dev.seg seg).state = .recovering →
    let g := s.dev.seg seg
    let told := if g.fromBlocked then post (.segmentState seg .recovered) s.dev else s.dev
    (recoveryEnds lines = some (n, true) → ∃ g' : Segment,
      exec (.recoverySuccess seg lines) s = .next { s with dev := told.updSeg seg fun _ => g' } ∧
      g' = { g with
        state := .idle
        fromBlocked := false
        pulses := n
        owner := .taken
        freeCount := true
        sweep := if g.alrLow = true ∧ g.config.sweepEnable = true ∧ g.sweep = .idle then .pending else g.sweep }) ∧
    (recoveryEnds lines = some (n, false) →
      let fault := match g.fault with
        | none => some ⟨.recoveryFailed, none, none, 0⟩
        | some f => some { f with further := min (f.further + 1) 255 }
      exec (.recoveryFailure seg lines) s = .next { s with dev := post (.segmentState seg .blocked) (s.dev.updSeg seg fun g =>
        { g with state := .blocked, fromBlocked := false, pulses := n, fault := fault }) })

/-- Bus ownership follows START, STOP, the free time and 100 microseconds of high lines (R63); a reception ends at a START or a STOP (R109)
and is cut by the last (R110); when the bus becomes free a transaction in WAIT_FREE starts (R64), and for an IDLE engine a selection is made
(R47). An OFF segment follows nothing. That BUS_START_SEEN is also the engine's own START is the model's reading (log 20), and so is that the
100 microseconds put a PASSIVE record back to NONE (log 24); where no count runs, BUS_FREE_TIME_EXPIRY does nothing (log 6). -/
def Obligations.OwnershipFollowsTheBus : Prop :=
  ∀ (s : State) (seg : SegId),
    let g := s.dev.seg seg
    let ended := endReception seg s.dev
    let cut := cutReception seg s.dev
    let freed := fun (w : Work) => match w with
      | .conversation h ctx => match ctx.phase with
        | .transaction r _ .waitFree =>
          Work.conversation h { ctx with phase := .transaction r (targetPec s.dev (s.dev.conv h).target) .start }
        | _ => w
      | .sweep .waitFree => .sweep .start
      | _ => w
    let placed := fun (w : Work) => match w with
      | .conversation h ctx => match ctx.phase with
        | .transaction r p .start => Work.conversation h { ctx with phase := .transaction r p .address }
        | _ => w
      | .sweep .start => .sweep .address
      | _ => w
    (g.config.enabled = false → exec (.busStartSeen seg) s = .next s ∧ exec (.busStopSeen seg) s = .next s ∧
      exec (.busIdleTimeout seg) s = .next s) ∧
    (g.config.enabled = true → exec (.busStartSeen seg) s = .next { s with dev := ended.updSeg seg fun g =>
      { g with owner := .taken, freeCount := false, work := placed g.work } }) ∧
    (g.config.enabled = true → exec (.busStopSeen seg) s = .next { s with dev := ended.updSeg seg fun g => { g with freeCount := true } }) ∧
    (g.freeCount = false → exec (.busFreeTimeExpiry seg) s = .next s) ∧
    (g.freeCount = true → exec (.busFreeTimeExpiry seg) s = .next { s with dev := makeSelection seg (s.dev.updSeg seg fun g =>
      { g with owner := .free, freeCount := false, work := freed g.work }) }) ∧
    (g.config.enabled = true → exec (.busIdleTimeout seg) s = .next { s with dev := makeSelection seg (cut.updSeg seg fun g =>
      { g with owner := .free, freeCount := false, work := freed g.work }) })

/-! ## Target receivers, Alert Inbox, alert sweeps (06) -/

/-- The receiver judges an address byte (R106, R107, R111) and takes data bytes (R108); a message is stored or coalesced at its end (R109,
R114). In a direct read it sends the count of free places, then 0xFF for each further byte, and nothing after a byte that the master has left
unacknowledged (R111). A record that still stands at an address byte ends first (the model's reading, log 18), and the byte leaves the bus
ownership and the free-time count as they are, the model's choice (log 36). -/
def Obligations.ReceiverTakesPartByTheTable : Prop :=
  (∀ (s : State) (seg : SegId) (b : Byte),
    let g := s.dev.seg seg
    let active := (g.state = .idle ∨ g.state = .active) ∧ g.config.ownAddress ≠ 0#7
    let d := endReception seg s.dev
    let free := 16 - (d.inbox.entries.length + d.inbox.reserved)
    let c : Instr := .addressByteJudged seg b
    let own := (b >>> 1).setWidth 7 = g.config.ownAddress
    let broadcast := (b >>> 1).setWidth 7 = 0#7 ∧ g.config.broadcast = true
    let becomes := fun (r : Reception) (ack : Bool) (x : Inbox) =>
      (.next { s with dev := (d.updInbox fun _ => x).updSeg seg fun g => { g with reception := r, ackDriven := ack } } : Answer)
    ((¬ active ∨ g.work.onWire = true) → exec c s = .next s) ∧
    (active → g.work.onWire = false →
      (own → b.getLsbD 0 = true → exec c s = becomes (.directRead free) true d.inbox) ∧
      (own → b.getLsbD 0 = false → 0 < free →
        exec c s = becomes (.write .direct [] false) true { d.inbox with reserved := d.inbox.reserved + 1 }) ∧
      (¬ own → broadcast → b.getLsbD 0 = false → 0 < free →
        exec c s = becomes (.write .broadcast [] false) true { d.inbox with reserved := d.inbox.reserved + 1 }) ∧
      ((own ∨ broadcast) → b.getLsbD 0 = false → free = 0 →
        exec c s = becomes .passive false { d.inbox with refusals := min (d.inbox.refusals + 1) 65535 }) ∧
      (¬ own → (¬ broadcast ∨ b.getLsbD 0 = true) → exec c s = becomes .nothing false d.inbox))) ∧
  (∀ (s : State) (seg : SegId) (b : Byte) (kind : InboxKind) (bytes : List Byte) (truncated : Bool),
    (s.dev.seg seg).reception = .write kind bytes truncated →
    (bytes.length < 32 → truncated = false → exec (.receivedDataByte seg b) s = .next { s with dev := s.dev.updSeg seg fun g =>
      { g with reception := .write kind (bytes ++ [b]) false, ackDriven := true } }) ∧
    ((32 ≤ bytes.length ∨ truncated = true) → exec (.receivedDataByte seg b) s = .next { s with dev := s.dev.updSeg seg fun g =>
      { g with reception := .write kind bytes true, ackDriven := false } })) ∧
  (∀ (s : State) (seg : SegId) (b : Byte), (s.dev.seg seg).reception.writes = false → exec (.receivedDataByte seg b) s = .next s) ∧
  (∀ (free : Nat) (acks : List Bool),
    (acks = [] → (Reception.directRead free).sends acks = some (byte free)) ∧
    (acks ≠ [] → (∀ b ∈ acks, b = true) → (Reception.directRead free).sends acks = some 0xFF#8) ∧
    (false ∈ acks → (Reception.directRead free).sends acks = none)) ∧
  (∀ (r : Reception) (acks : List Bool), (∀ free, r ≠ .directRead free) → r.sends acks = none) ∧
  ∀ (d : Device) (seg : SegId) (kind : InboxKind) (bytes : List Byte) (truncated : Bool),
    (d.seg seg).reception = .write kind bytes truncated →
    let closed := fun d : Device => d.updSeg seg fun g => { g with reception := .nothing, ackDriven := false }
    let same := fun e : InboxEntry => e.segment = seg ∧ e.kind = kind ∧ e.bytes = bytes
    (bytes = [] → endReception seg d = closed (d.updInbox fun x => { x with reserved := x.reserved - 1 })) ∧
    (bytes ≠ [] → (∀ e ∈ d.inbox.entries, ¬ same e) → endReception seg d = closed (post (.inbox seg kind bytes.length)
      (d.updInbox fun x => { x with entries := x.entries ++ [⟨seg, kind, bytes, truncated, 1⟩], reserved := x.reserved - 1 }))) ∧
    (∀ l e r, bytes ≠ [] → d.inbox.entries = l ++ e :: r → same e → (∀ e' ∈ l ++ r, ¬ same e') →
      endReception seg d = closed (d.updInbox fun x =>
        { x with
          entries := l ++ { e with repeats := min (e.repeats + 1) 255, truncated := e.truncated || truncated } :: r
          reserved := x.reserved - 1 }))

/-- FETCH_INBOX takes the oldest entry or answers EMPTY (R115); INBOX_STATUS answers the counts and may clear the refusal count (R116). -/
def Obligations.InboxIsFetchedOldestFirst : Prop :=
  (∀ (s : State) (tag : Byte) (o : Outbound), accepts s.dev 0 o = true →
    (s.dev.inbox.entries = [] → exec (.fetchInbox tag []) s = replyTo s 0xD0#8 tag [0x13#8] (found o s.dev)) ∧
    (∀ e rest, s.dev.inbox.entries = e :: rest → exec (.fetchInbox tag []) s =
      replyTo s 0xD0#8 tag
        ([0x00#8, byte e.segment.val, e.kind.code, flagByte e.truncated, byte e.repeats, byte rest.length] ++ e.bytes)
        ((found o s.dev).updInbox fun x => { x with entries := rest }))) ∧
  ∀ (s : State) (tag clear : Byte) (o : Outbound), accepts s.dev 1 o = true →
    let x := s.dev.inbox
    exec (.inboxStatus tag [clear]) s =
      replyTo s 0xD1#8 tag ([0x00#8, byte x.entries.length, byte x.reserved] ++ le16 (BitVec.ofNat 16 x.refusals))
        (if clear = 0#8 then found o s.dev else (found o s.dev).updInbox fun x => { x with refusals := 0 })

/-- ALR arms a sweep, ends a holdoff and ends STUCK (R118); a holdoff expires into PENDING or IDLE (R121); a sweep newly pending makes a
selection (R47). That the two rows act whatever level of ALR is held is the model's choice (log 25), and so is that the expiry of no holdoff
does nothing (log 6). -/
def Obligations.AlertLineArmsAndDisarmsSweeps : Prop :=
  ∀ (s : State) (seg : SegId),
    let g := s.dev.seg seg
    let becomes := fun (low : Bool) (sweep : Sweep) (count : Nat) =>
      (.next { s with dev := s.dev.updSeg seg fun g => { g with alrLow := low, sweep := sweep, emptySweeps := count } } : Answer)
    let armed := (.next { s with dev := makeSelection seg (s.dev.updSeg seg fun g => { g with alrLow := true, sweep := .pending }) } : Answer)
    (g.state ≠ .off → g.sweep = .idle → g.config.sweepEnable = true → exec (.alrFall seg) s = armed) ∧
    ((g.state = .off ∨ g.sweep ≠ .idle ∨ g.config.sweepEnable = false) →
      exec (.alrFall seg) s = becomes true g.sweep g.emptySweeps) ∧
    (g.state ≠ .off → (g.sweep = .holdoff ∨ g.sweep = .stuck) → exec (.alrRise seg) s = becomes false .idle 0) ∧
    ((g.state = .off ∨ (g.sweep ≠ .holdoff ∧ g.sweep ≠ .stuck)) → exec (.alrRise seg) s = becomes false g.sweep g.emptySweeps) ∧
    (g.sweep = .holdoff → g.alrLow = true → exec (.sweepHoldoffExpiry seg) s = armed) ∧
    (g.sweep = .holdoff → g.alrLow = false → exec (.sweepHoldoffExpiry seg) s = becomes false .idle 0) ∧
    (g.sweep ≠ .holdoff → exec (.sweepHoldoffExpiry seg) s = .next s)

/-! ## The Poll Scheduler (07) -/

/-- SET_FRAME (R128), START_SCHEDULE (R129), STOP_SCHEDULE (R131) and COMMIT_BANK (R136) by the schedule's state. That the selections which
the joins of frame 0 lead to come after the whole action is the model's choice (log 35). -/
def Obligations.ScheduleRequestsFollowItsState : Prop :=
  (∀ (s : State) (tag b : Byte) (o : Outbound), accepts s.dev 1 o = true →
    ((b = 0#8 ∨ 100 < b.toNat) → exec (.setFrame tag [b]) s = replyTo s 0xC0#8 tag [0x04#8] (found o s.dev)) ∧
    (1 ≤ b.toNat → b.toNat ≤ 100 → s.dev.schedule.running = true →
      exec (.setFrame tag [b]) s = replyTo s 0xC0#8 tag [0x11#8] (found o s.dev)) ∧
    (1 ≤ b.toNat → b.toNat ≤ 100 → s.dev.schedule.running = false → exec (.setFrame tag [b]) s =
      replyTo s 0xC0#8 tag [0x00#8] ((found o s.dev).updSchedule fun x => { x with frameLength := b.toNat }))) ∧
  ∀ (s : State) (tag : Byte) (o : Outbound), accepts s.dev 0 o = true →
    let x := s.dev.schedule
    let d := found o s.dev
    let stopped := d.updSchedule fun x => { x with running := false, timer := none }
    (x.running = true → exec (.startSchedule tag []) s = replyTo s 0xC1#8 tag [0x11#8] d) ∧
    (x.running = false → exec (.startSchedule tag []) s = replyTo s 0xC1#8 tag [0x00#8] (selectAfterJoins d
      ((evaluateFrame (d.updSchedule fun x => { x with frame := 0#32, running := true })).updSchedule fun y =>
        { y with timer := some x.frameLength }))) ∧
    (x.running = false → exec (.stopSchedule tag []) s = replyTo s 0xC2#8 tag (0x00#8 :: 0#8 :: le32 x.frame) d) ∧
    (x.running = true → x.swapPending = false →
      exec (.stopSchedule tag []) s = replyTo s 0xC2#8 tag (0x00#8 :: 0#8 :: le32 x.frame) stopped) ∧
    (x.running = true → x.swapPending = true → exec (.stopSchedule tag []) s =
      replyTo s 0xC2#8 tag (0x00#8 :: flagByte true :: le32 x.frame)
        ((swapBanks stopped).updSchedule fun x => { x with swapPending := false })) ∧
    (x.running = false → exec (.commitBank tag []) s = replyTo s 0xC7#8 tag [0x00#8, x.active.other.code] (swapBanks d)) ∧
    (x.running = true → x.swapPending = false → exec (.commitBank tag []) s =
      replyTo s 0xC7#8 tag [0x01#8, x.active.other.code] (d.updSchedule fun x => { x with swapPending := true })) ∧
    (x.running = true → x.swapPending = true → exec (.commitBank tag []) s = replyTo s 0xC7#8 tag [0x12#8] d)

/-- The swap: the selector changes, the new active entries carry last value and failing flag over from old entries that ask the same
question, the other run-time fields are fresh, and BANK_SWAPPED is posted (R137). -/
def Obligations.SwapCarriesOverEqualQuestions : Prop :=
  ∀ d : Device,
    let old := d.schedule.active
    let t := swapBanks d
    t.schedule.active = old.other ∧ t.schedule.running = d.schedule.running ∧ t.schedule.timer = d.schedule.timer ∧
    t.schedule.frame = d.schedule.frame ∧ t.schedule.frameLength = d.schedule.frameLength ∧
    t.schedule.swapPending = d.schedule.swapPending ∧ t.reports = d.reports.post (.bankSwapped old.other) ∧
    t.directory = d.directory ∧ t.pool = d.pool ∧ t.segments = d.segments ∧ t.inbox = d.inbox ∧ t.port = d.port ∧
    (∀ i, t.poll old i = d.poll old i) ∧
    (∀ i, d.poll old.other i = none → t.poll old.other i = none) ∧
    ∀ i n, d.poll old.other i = some n →
      (∀ e, d.poll old i = some e → e.config.target = n.config.target → e.config.command = n.config.command →
        e.config.length = n.config.length → t.poll old.other i = some ⟨n.config, e.lastValue, e.failing, 0, false, none⟩) ∧
      ((∀ e, d.poll old i = some e →
          ¬ (e.config.target = n.config.target ∧ e.config.command = n.config.command ∧ e.config.length = n.config.length)) →
        t.poll old.other i = some ⟨n.config, none, false, 0, false, none⟩)

/-- PUT_POLL, CLEAR_POLL, CLEAR_SHADOW and COPY_ACTIVE edit the shadow bank with the references of its entries (R8, R126), never the active
one, and are refused while a swap is pending (R132 to R134, R124); READ_POLL reads either bank (R135). A frame boundary raises the counter,
makes a pending swap, evaluates the active bank entry by entry in index order and starts the timer again (R130); a due entry is handled by the
first of four cases (R139 to R142). That the selections which its joins lead to (R47) come after the whole action, the segments in order, is
the model's choice (log 35); a frame boundary in STOPPED does nothing (log 6); absent fields are sent as 0 (log 12). -/
def Obligations.PollEntriesAreEditedReadAndEvaluated : Prop :=
  (∀ (s : State) (tag cmd m0 m1 m2 m3 : Byte) (i : PollId) (target : TargetId) (length : Byte) (period phase : Half) (policy : Policy)
    (cls : Machine.Class) (o : Outbound), accepts s.dev 14 o = true →
    let c : Instr := .putPoll tag ([byte i.val, byte target.val, cmd, length] ++ le16 period ++ le16 phase ++
      [policy.code, cls.code, m0, m1, m2, m3])
    let inRange := 1 ≤ length.toNat ∧ length.toNat ≤ 4 ∧ 1 ≤ period.toNat ∧ period.toNat ≤ 1000 ∧ phase.toNat < period.toNat
    let config : PollConfig := ⟨target, cmd, length.toNat, period.toNat, phase.toNat, [m0, m1, m2, m3].take length.toNat, policy, cls⟩
    let shadow := s.dev.schedule.active.other
    let put := fun d : Device => raiseRef target (d.setPoll shadow i (some ⟨config, none, false, 0, false, none⟩))
    (¬ inRange → exec c s = replyTo s 0xC3#8 tag [0x04#8] (found o s.dev)) ∧
    (inRange → s.dev.schedule.swapPending = true → exec c s = replyTo s 0xC3#8 tag [0x12#8] (found o s.dev)) ∧
    (inRange → s.dev.schedule.swapPending = false → (s.dev.entry target).presence = .vacant →
      exec c s = replyTo s 0xC3#8 tag [0x05#8] (found o s.dev)) ∧
    (inRange → s.dev.schedule.swapPending = false → (s.dev.entry target).presence = .withdrawing →
      exec c s = replyTo s 0xC3#8 tag [0x10#8] (found o s.dev)) ∧
    (inRange → s.dev.schedule.swapPending = false → (s.dev.entry target).presence ≠ .vacant →
      (s.dev.entry target).presence ≠ .withdrawing →
      (s.dev.poll shadow i = none → exec c s = replyTo s 0xC3#8 tag [0x00#8, byte i.val] (put (found o s.dev))) ∧
      (∀ e, s.dev.poll shadow i = some e → exec c s =
        replyTo s 0xC3#8 tag [0x00#8, byte i.val] (put (releaseRef e.config.target (found o s.dev)))))) ∧
  (∀ (s : State) (tag : Byte) (i : PollId) (o : Outbound), accepts s.dev 1 o = true →
    let shadow := s.dev.schedule.active.other
    (s.dev.schedule.swapPending = true → exec (.clearPoll tag [byte i.val]) s = replyTo s 0xC4#8 tag [0x12#8] (found o s.dev)) ∧
    (s.dev.schedule.swapPending = false → s.dev.poll shadow i = none →
      exec (.clearPoll tag [byte i.val]) s = replyTo s 0xC4#8 tag [0x00#8, 0#8] (found o s.dev)) ∧
    (∀ e, s.dev.schedule.swapPending = false → s.dev.poll shadow i = some e →
      exec (.clearPoll tag [byte i.val]) s = replyTo s 0xC4#8 tag [0x00#8, flagByte true]
        (releaseRef e.config.target ((found o s.dev).setPoll shadow i none)))) ∧
  (∀ (s : State) (tag : Byte) (o : Outbound), accepts s.dev 0 o = true →
    let active := s.dev.schedule.active
    let used := fun bank => byte ((List.finRange 48).countP fun i => (s.dev.poll bank i).isSome)
    (s.dev.schedule.swapPending = true →
      exec (.clearShadow tag []) s = replyTo s 0xC5#8 tag [0x12#8] (found o s.dev) ∧
      exec (.copyActive tag []) s = replyTo s 0xC6#8 tag [0x12#8] (found o s.dev)) ∧
    (s.dev.schedule.swapPending = false →
      let named := fun bank t => namings s.dev bank t
      let released := fun t => if (s.dev.entry t).presence = .withdrawing ∧ named active.other t ≠ 0 ∧
          (s.dev.entry t).refs ≤ named active.other t then Entry.vacant
        else { s.dev.entry t with refs := (s.dev.entry t).refs - named active.other t }
      let noneGoes := ∀ t, named active.other t ≠ 0 → (s.dev.entry t).presence ≠ .withdrawing
      (∃ d, exec (.clearShadow tag []) s = replyTo s 0xC5#8 tag [0x00#8, used active.other] d ∧
        (∀ t, d.entry t = released t) ∧ (noneGoes → d.reports = s.dev.reports) ∧
        (∀ i, d.poll active.other i = none) ∧ (∀ i, d.poll active i = s.dev.poll active i) ∧ d.schedule.active = active ∧
        d.pool = s.dev.pool ∧ d.segments = s.dev.segments) ∧
      (∃ d, exec (.copyActive tag []) s = replyTo s 0xC6#8 tag [0x00#8, used active] d ∧
        (∀ t, d.entry t = { released t with refs := (released t).refs + named active t }) ∧ (noneGoes → d.reports = s.dev.reports) ∧
        (∀ i, d.poll active.other i =
          (s.dev.poll active i).map fun e => (⟨e.config, none, false, 0, false, none⟩ : PollEntry)) ∧
        (∀ i, d.poll active i = s.dev.poll active i) ∧ d.schedule.active = active ∧
        d.pool = s.dev.pool ∧ d.segments = s.dev.segments))) ∧
  (∀ (s : State) (tag : Byte) (bank : Bank) (i : PollId) (o : Outbound), accepts s.dev 2 o = true →
    let x := s.dev.schedule
    let head := [0x00#8, if x.running then 1#8 else 0#8, byte x.frameLength] ++ le32 x.frame ++ [x.active.code, flagByte x.swapPending]
    (s.dev.poll bank i = none → exec (.readPoll tag [bank.code, byte i.val]) s =
      replyTo s 0xC8#8 tag (head ++ [0#8] ++ List.replicate 24 0#8) (found o s.dev)) ∧
    (∀ e, s.dev.poll bank i = some e → exec (.readPoll tag [bank.code, byte i.val]) s =
      replyTo s 0xC8#8 tag
        (head ++ [flagByte true, byte e.config.target.val, e.config.command, byte e.config.length] ++
          le16 (BitVec.ofNat 16 e.config.period) ++ le16 (BitVec.ofNat 16 e.config.phase) ++ padTo 4 e.config.mask ++
          [e.config.policy.code, e.config.cls.code,
            byte ((if e.lastValue.isSome then 1 else 0) + (if e.outstanding.isSome then 2 else 0))] ++
          padTo 4 (e.lastValue.getD []) ++ [flagByte e.failing, byte e.overrun, flagByte e.skipReported] ++
          ((e.outstanding.map Handle.bytes).getD [0#8, 0#8, 0#8])) (found o s.dev))) ∧
  (∀ s : State, (s.dev.schedule.running = false ∨ s.dev.schedule.timer = none) → exec .frameBoundary s = .next s) ∧
  (∀ (s : State) (n : Nat), s.dev.schedule.running = true → s.dev.schedule.timer = some n →
    let counted := s.dev.updSchedule fun x => { x with frame := x.frame + 1#32 }
    let timed := fun d : Device => d.updSchedule fun x => { x with timer := some x.frameLength }
    (s.dev.schedule.swapPending = false →
      exec .frameBoundary s = .next { s with dev := selectAfterJoins s.dev (timed (evaluateFrame counted)) }) ∧
    (s.dev.schedule.swapPending = true →
      exec .frameBoundary s = .next { s with dev := selectAfterJoins s.dev (timed (evaluateFrame
        ((swapBanks counted).updSchedule fun x => { x with swapPending := false }))) }) ∧
    ∃ d, exec .frameBoundary s = .next { s with dev := d } ∧ d.schedule.frame = s.dev.schedule.frame + 1#32 ∧
      d.schedule.running = true ∧ d.schedule.timer = some s.dev.schedule.frameLength ∧ d.schedule.swapPending = false ∧
      d.schedule.active = if s.dev.schedule.swapPending then s.dev.schedule.active.other else s.dev.schedule.active) ∧
  (∀ d : Device, evaluateFrame d = (List.finRange 48).foldl evaluateEntry d) ∧
  (∀ (d : Device) (k : PollId), d.poll d.schedule.active k = none → evaluateEntry d k = d) ∧
  (∀ before d : Device, selectAfterJoins before d = (List.finRange 4).foldl (fun d seg =>
    if (d.seg seg).urgent = (before.seg seg).urgent ∧ (d.seg seg).normal = (before.seg seg).normal then d else makeSelection seg d) d) ∧
  ∀ (d : Device) (bank : Bank) (k : PollId) (e : PollEntry), d.poll bank k = some e →
    let target := d.entry e.config.target
    let noSlot := ∀ i, (d.slot i).state ≠ .free
    (d.schedule.active = bank → d.schedule.frame.toNat % e.config.period ≠ e.config.phase → evaluateEntry d k = d) ∧
    (d.schedule.active = bank → d.schedule.frame.toNat % e.config.period = e.config.phase →
      evaluateEntry d k = handleDue bank k e d) ∧
    (e.outstanding ≠ none → e.overrun = 0 →
      handleDue bank k e d = post (.pollOverrun bank k) (d.setPoll bank k (some { e with overrun := 1 }))) ∧
    (e.outstanding ≠ none → e.overrun ≠ 0 → handleDue bank k e d = d.setPoll bank k (some { e with overrun := min (e.overrun + 1) 255 })) ∧
    (e.outstanding = none → noSlot → e.skipReported = false →
      handleDue bank k e d = post (.pollSkipped bank k) (d.setPoll bank k (some { e with skipReported := true }))) ∧
    (e.outstanding = none → noSlot → e.skipReported = true → handleDue bank k e d = d.setPoll bank k (some e)) ∧
    (e.outstanding = none → ¬ noSlot → (d.seg target.segment).state = .off → e.failing = false →
      handleDue bank k e d = post (.pollFailed bank k .segmentOff) (d.setPoll bank k (some { e with failing := true }))) ∧
    (e.outstanding = none → ¬ noSlot → (d.seg target.segment).state = .off → e.failing = true →
      handleDue bank k e d = d.setPoll bank k (some e)) ∧
    (∀ i : SlotId, e.outstanding = none → (d.slot i).state = .free → (∀ j, j < i → (d.slot j).state ≠ .free) →
      (d.seg target.segment).state ≠ .off →
      let deadline := min (e.config.period * d.schedule.frameLength) 65535
      let conv : Conv := ⟨.poll bank k, .directory e.config.target, e.config.cls, none, ⟨0, 5, 3⟩, some deadline,
        [.read (some e.config.command) e.config.length false], none, none, none, some deadline⟩
      handleDue bank k e d =
        (((raiseRef e.config.target (d.updSlot i fun x => ⟨x.gen, .queued, conv⟩)).updSeg target.segment fun g =>
          match e.config.cls with
          | .urgent => { g with urgent := g.urgent ++ [d.handle i] }
          | .normal => { g with normal := g.normal ++ [d.handle i] }).setPoll bank k
            (some { e with outstanding := some (d.handle i), skipReported := false })))

/-! ## The laws that hold across the blocks -/

/-- Every step keeps the laws of references, queues, slots and engines: an entry's count is the live conversations and the poll entries that
name it (R8), a WITHDRAWING one has some (R17), a conversation is QUEUED exactly when its handle stands once in its list (R45), the host holds
at most 24 (R23), the streak is at most 4 (R49), a conversation is RUNNING exactly while its engine runs it and so in no segment that is OFF,
RECOVERING or BLOCKED (R50, R58), and no ready engine has anything left to offer (R47; that each event of R47 makes its selection within its
own step is logs 4 and 35). The idle timer runs in ASSEMBLING alone (R30), a stop request stands in RUNNING alone (R35), a QUEUED conversation
has a step (R31), and a VACANT entry has no reference (R8). -/
def Obligations.EveryStepKeepsTheWorkLaw : Prop :=
  ∀ s t : State, WorkLaw s.dev → step s = .next t → WorkLaw t.dev

/-! ## Frames: what commands leave alone -/

/-- The segment an event of a segment engine, a receiver or a sweep belongs to. -/
def Claims.eventSegment : Instr → Option SegId
  | .conversationStart g => some g
  | .sweepStart g => some g
  | .transactionEnd g _ _ => some g
  | .arbLost g _ => some g
  | .retryGapExpiry g => some g
  | .intervalExpiry g => some g
  | .pauseExpiry g => some g
  | .clockStall g _ => some g
  | .busFault g _ => some g
  | .receptionStall g => some g
  | .recoverySuccess g _ => some g
  | .recoveryFailure g _ => some g
  | .busStartSeen g => some g
  | .busStopSeen g => some g
  | .busFreeTimeExpiry g => some g
  | .busIdleTimeout g => some g
  | .addressByteJudged g _ => some g
  | .receivedDataByte g _ => some g
  | .alrFall g => some g
  | .alrRise g => some g
  | .sweepHoldoffExpiry g => some g
  | _ => none

/-- The schedule's own state and timer, and the report queue's mask and mark, are as they were. -/
def Claims.schedulingKept (d t : Device) : Prop :=
  t.schedule.running = d.schedule.running ∧ t.schedule.timer = d.schedule.timer ∧ t.schedule.frame = d.schedule.frame ∧
  t.schedule.frameLength = d.schedule.frameLength ∧ t.schedule.active = d.schedule.active ∧
  t.schedule.swapPending = d.schedule.swapPending ∧ t.reports.mask = d.reports.mask ∧ t.reports.mark = d.reports.mark

/-- What commands leave alone. An event of a segment: the port, the pins, the other segments, its own configuration and HELD, the schedule's
state, the report mask and mark. The timers' events: the port, the pins, the inbox. The accepted requests whose statements give parts of the
next state only: all but the reply at the port, the schedule's state, the report mask and mark, every configuration and HELD, the inbox. -/
def Obligations.CommandsLeaveTheRestAlone : Prop :=
  (∀ (c : Instr) (seg : SegId) (s t : State), Claims.eventSegment c = some seg → exec c s = .next t →
    t.dev.port = s.dev.port ∧ t.dev.rstnLow = s.dev.rstnLow ∧ t.pending = s.pending ∧
    (∀ j, j ≠ seg → t.dev.seg j = s.dev.seg j) ∧ (t.dev.seg seg).config = (s.dev.seg seg).config ∧
    (t.dev.seg seg).held = (s.dev.seg seg).held ∧ Claims.schedulingKept s.dev t.dev) ∧
  (∀ (c : Instr) (s t : State), (c = .frameBoundary ∨ ∃ i, c = .assemblyExpiry i ∨ c = .deadlineExpiry i) → exec c s = .next t →
    t.dev.port = s.dev.port ∧ t.dev.rstnLow = s.dev.rstnLow ∧ t.pending = s.pending ∧ t.dev.inbox = s.dev.inbox ∧
    t.dev.reports.mask = s.dev.reports.mask ∧ t.dev.reports.mark = s.dev.reports.mark) ∧
  ∀ (c : Instr) (k : RequestKind) (tag : Byte) (body : List Byte) (s t : State) (o : Outbound), requestOf c = some (k, tag, body) →
    (k = .cancelConversation ∨ k = .flushSegment ∨ k = .resetSegment ∨ k = .withdrawTarget ∨ k = .clearShadow ∨ k = .copyActive) →
    body.length ≤ 60 → accepts s.dev body.length o = true → exec c s = .next t →
    (∃ r, t.dev.port = (pushReply r (found o s.dev)).port) ∧ t.dev.rstnLow = s.dev.rstnLow ∧ t.pending = s.pending ∧
    Claims.schedulingKept s.dev t.dev ∧
    (∀ j, (t.dev.seg j).config = (s.dev.seg j).config ∧ (t.dev.seg j).held = (s.dev.seg j).held) ∧
    (k ≠ .resetSegment → t.dev.inbox = s.dev.inbox)
end

