-- ==== Sys2Proof/Laws/State.lean ====
section
/-! SUPPORT. One lemma per table read after a table write, and per part of the device after an update of one part. -/

namespace Sys2Proof.Machine

/-! ## Tables -/

theorem get_eq_getElem {α : Type} {n : Nat} (v : Vector α n) (i : Fin n) : v.get i = v[i.val] := rfl

theorem upd_get {α : Type} {n : Nat} (v : Vector α n) (i j : Fin n) (f : α → α) :
    (upd v i f).get j = if i = j then f (v.get j) else v.get j := by
  simp only [get_eq_getElem, upd, Vector.getElem_set, Fin.ext_iff]
  split
  · next h => simp [h]
  · rfl

@[simp] theorem upd_get_same {α : Type} {n : Nat} (v : Vector α n) (i : Fin n) (f : α → α) :
    (upd v i f).get i = f (v.get i) := by
  simp [upd_get]

theorem upd_get_other {α : Type} {n : Nat} (v : Vector α n) {i j : Fin n} (f : α → α) (h : i ≠ j) :
    (upd v i f).get j = v.get j := by
  simp [upd_get, h]

@[simp] theorem mapTable_get {α β : Type} {n : Nat} (f : Fin n → α → β) (v : Vector α n) (i : Fin n) :
    (mapTable f v).get i = f i (v.get i) := by
  simp [get_eq_getElem, mapTable]

@[simp] theorem replicate_get {α : Type} {n : Nat} (a : α) (i : Fin n) : (Vector.replicate n a).get i = a := by
  simp [get_eq_getElem]

/-! ## One part of the device after an update of one part -/

@[simp] theorem updEntry_directory {i : TargetId} {f : Entry → Entry} {d : Device} : (d.updEntry i f).directory = upd d.directory i f := rfl
@[simp] theorem updEntry_pool {i : TargetId} {f : Entry → Entry} {d : Device} : (d.updEntry i f).pool = d.pool := rfl
@[simp] theorem updEntry_segments {i : TargetId} {f : Entry → Entry} {d : Device} : (d.updEntry i f).segments = d.segments := rfl
@[simp] theorem updEntry_inbox {i : TargetId} {f : Entry → Entry} {d : Device} : (d.updEntry i f).inbox = d.inbox := rfl
@[simp] theorem updEntry_schedule {i : TargetId} {f : Entry → Entry} {d : Device} : (d.updEntry i f).schedule = d.schedule := rfl
@[simp] theorem updEntry_reports {i : TargetId} {f : Entry → Entry} {d : Device} : (d.updEntry i f).reports = d.reports := rfl
@[simp] theorem updEntry_port {i : TargetId} {f : Entry → Entry} {d : Device} : (d.updEntry i f).port = d.port := rfl
@[simp] theorem updEntry_rstnLow {i : TargetId} {f : Entry → Entry} {d : Device} : (d.updEntry i f).rstnLow = d.rstnLow := rfl

@[simp] theorem updSlot_directory {i : SlotId} {f : Slot → Slot} {d : Device} : (d.updSlot i f).directory = d.directory := rfl
@[simp] theorem updSlot_pool {i : SlotId} {f : Slot → Slot} {d : Device} : (d.updSlot i f).pool = upd d.pool i f := rfl
@[simp] theorem updSlot_segments {i : SlotId} {f : Slot → Slot} {d : Device} : (d.updSlot i f).segments = d.segments := rfl
@[simp] theorem updSlot_inbox {i : SlotId} {f : Slot → Slot} {d : Device} : (d.updSlot i f).inbox = d.inbox := rfl
@[simp] theorem updSlot_schedule {i : SlotId} {f : Slot → Slot} {d : Device} : (d.updSlot i f).schedule = d.schedule := rfl
@[simp] theorem updSlot_reports {i : SlotId} {f : Slot → Slot} {d : Device} : (d.updSlot i f).reports = d.reports := rfl
@[simp] theorem updSlot_port {i : SlotId} {f : Slot → Slot} {d : Device} : (d.updSlot i f).port = d.port := rfl
@[simp] theorem updSlot_rstnLow {i : SlotId} {f : Slot → Slot} {d : Device} : (d.updSlot i f).rstnLow = d.rstnLow := rfl

@[simp] theorem updSeg_directory {i : SegId} {f : Segment → Segment} {d : Device} : (d.updSeg i f).directory = d.directory := rfl
@[simp] theorem updSeg_pool {i : SegId} {f : Segment → Segment} {d : Device} : (d.updSeg i f).pool = d.pool := rfl
@[simp] theorem updSeg_segments {i : SegId} {f : Segment → Segment} {d : Device} : (d.updSeg i f).segments = upd d.segments i f := rfl
@[simp] theorem updSeg_inbox {i : SegId} {f : Segment → Segment} {d : Device} : (d.updSeg i f).inbox = d.inbox := rfl
@[simp] theorem updSeg_schedule {i : SegId} {f : Segment → Segment} {d : Device} : (d.updSeg i f).schedule = d.schedule := rfl
@[simp] theorem updSeg_reports {i : SegId} {f : Segment → Segment} {d : Device} : (d.updSeg i f).reports = d.reports := rfl
@[simp] theorem updSeg_port {i : SegId} {f : Segment → Segment} {d : Device} : (d.updSeg i f).port = d.port := rfl
@[simp] theorem updSeg_rstnLow {i : SegId} {f : Segment → Segment} {d : Device} : (d.updSeg i f).rstnLow = d.rstnLow := rfl

@[simp] theorem updPort_directory {f : Port → Port} {d : Device} : (d.updPort f).directory = d.directory := rfl
@[simp] theorem updPort_pool {f : Port → Port} {d : Device} : (d.updPort f).pool = d.pool := rfl
@[simp] theorem updPort_segments {f : Port → Port} {d : Device} : (d.updPort f).segments = d.segments := rfl
@[simp] theorem updPort_inbox {f : Port → Port} {d : Device} : (d.updPort f).inbox = d.inbox := rfl
@[simp] theorem updPort_schedule {f : Port → Port} {d : Device} : (d.updPort f).schedule = d.schedule := rfl
@[simp] theorem updPort_reports {f : Port → Port} {d : Device} : (d.updPort f).reports = d.reports := rfl
@[simp] theorem updPort_port {f : Port → Port} {d : Device} : (d.updPort f).port = f d.port := rfl
@[simp] theorem updPort_rstnLow {f : Port → Port} {d : Device} : (d.updPort f).rstnLow = d.rstnLow := rfl

@[simp] theorem updSchedule_directory {f : Schedule → Schedule} {d : Device} : (d.updSchedule f).directory = d.directory := rfl
@[simp] theorem updSchedule_pool {f : Schedule → Schedule} {d : Device} : (d.updSchedule f).pool = d.pool := rfl
@[simp] theorem updSchedule_segments {f : Schedule → Schedule} {d : Device} : (d.updSchedule f).segments = d.segments := rfl
@[simp] theorem updSchedule_inbox {f : Schedule → Schedule} {d : Device} : (d.updSchedule f).inbox = d.inbox := rfl
@[simp] theorem updSchedule_schedule {f : Schedule → Schedule} {d : Device} : (d.updSchedule f).schedule = f d.schedule := rfl
@[simp] theorem updSchedule_reports {f : Schedule → Schedule} {d : Device} : (d.updSchedule f).reports = d.reports := rfl
@[simp] theorem updSchedule_port {f : Schedule → Schedule} {d : Device} : (d.updSchedule f).port = d.port := rfl
@[simp] theorem updSchedule_rstnLow {f : Schedule → Schedule} {d : Device} : (d.updSchedule f).rstnLow = d.rstnLow := rfl

@[simp] theorem updInbox_directory {f : Inbox → Inbox} {d : Device} : (d.updInbox f).directory = d.directory := rfl
@[simp] theorem updInbox_pool {f : Inbox → Inbox} {d : Device} : (d.updInbox f).pool = d.pool := rfl
@[simp] theorem updInbox_segments {f : Inbox → Inbox} {d : Device} : (d.updInbox f).segments = d.segments := rfl
@[simp] theorem updInbox_inbox {f : Inbox → Inbox} {d : Device} : (d.updInbox f).inbox = f d.inbox := rfl
@[simp] theorem updInbox_schedule {f : Inbox → Inbox} {d : Device} : (d.updInbox f).schedule = d.schedule := rfl
@[simp] theorem updInbox_reports {f : Inbox → Inbox} {d : Device} : (d.updInbox f).reports = d.reports := rfl
@[simp] theorem updInbox_port {f : Inbox → Inbox} {d : Device} : (d.updInbox f).port = d.port := rfl
@[simp] theorem updInbox_rstnLow {f : Inbox → Inbox} {d : Device} : (d.updInbox f).rstnLow = d.rstnLow := rfl

@[simp] theorem updReports_directory {f : ReportQueue → ReportQueue} {d : Device} : (d.updReports f).directory = d.directory := rfl
@[simp] theorem updReports_pool {f : ReportQueue → ReportQueue} {d : Device} : (d.updReports f).pool = d.pool := rfl
@[simp] theorem updReports_segments {f : ReportQueue → ReportQueue} {d : Device} : (d.updReports f).segments = d.segments := rfl
@[simp] theorem updReports_inbox {f : ReportQueue → ReportQueue} {d : Device} : (d.updReports f).inbox = d.inbox := rfl
@[simp] theorem updReports_schedule {f : ReportQueue → ReportQueue} {d : Device} : (d.updReports f).schedule = d.schedule := rfl
@[simp] theorem updReports_reports {f : ReportQueue → ReportQueue} {d : Device} : (d.updReports f).reports = f d.reports := rfl
@[simp] theorem updReports_port {f : ReportQueue → ReportQueue} {d : Device} : (d.updReports f).port = d.port := rfl
@[simp] theorem updReports_rstnLow {f : ReportQueue → ReportQueue} {d : Device} : (d.updReports f).rstnLow = d.rstnLow := rfl

theorem updEntry_entry (d : Device) (i j : TargetId) (f : Entry → Entry) :
    (d.updEntry i f).entry j = if i = j then f (d.entry j) else d.entry j := upd_get ..

theorem updSlot_slot (d : Device) (i j : SlotId) (f : Slot → Slot) :
    (d.updSlot i f).slot j = if i = j then f (d.slot j) else d.slot j := upd_get ..

theorem updSeg_seg (d : Device) (i j : SegId) (f : Segment → Segment) :
    (d.updSeg i f).seg j = if i = j then f (d.seg j) else d.seg j := upd_get ..

@[simp] theorem updEntry_entry_same (d : Device) (i : TargetId) (f : Entry → Entry) :
    (d.updEntry i f).entry i = f (d.entry i) := by simp [updEntry_entry]

@[simp] theorem updSlot_slot_same (d : Device) (i : SlotId) (f : Slot → Slot) :
    (d.updSlot i f).slot i = f (d.slot i) := by simp [updSlot_slot]

@[simp] theorem updSeg_seg_same (d : Device) (i : SegId) (f : Segment → Segment) :
    (d.updSeg i f).seg i = f (d.seg i) := by simp [updSeg_seg]

@[simp] theorem updEntry_slot_frame {i : TargetId} {f : Entry → Entry} {d : Device} {j : SlotId} : (d.updEntry i f).slot j = d.slot j := rfl
@[simp] theorem updEntry_seg_frame {i : TargetId} {f : Entry → Entry} {d : Device} {j : SegId} : (d.updEntry i f).seg j = d.seg j := rfl
@[simp] theorem updSlot_entry_frame {i : SlotId} {f : Slot → Slot} {d : Device} {j : TargetId} : (d.updSlot i f).entry j = d.entry j := rfl
@[simp] theorem updSlot_seg_frame {i : SlotId} {f : Slot → Slot} {d : Device} {j : SegId} : (d.updSlot i f).seg j = d.seg j := rfl
@[simp] theorem updSeg_entry_frame {i : SegId} {f : Segment → Segment} {d : Device} {j : TargetId} : (d.updSeg i f).entry j = d.entry j := rfl
@[simp] theorem updSeg_slot_frame {i : SegId} {f : Segment → Segment} {d : Device} {j : SlotId} : (d.updSeg i f).slot j = d.slot j := rfl
@[simp] theorem updPort_entry_frame {f : Port → Port} {d : Device} {j : TargetId} : (d.updPort f).entry j = d.entry j := rfl
@[simp] theorem updPort_slot_frame {f : Port → Port} {d : Device} {j : SlotId} : (d.updPort f).slot j = d.slot j := rfl
@[simp] theorem updPort_seg_frame {f : Port → Port} {d : Device} {j : SegId} : (d.updPort f).seg j = d.seg j := rfl
@[simp] theorem updSchedule_entry_frame {f : Schedule → Schedule} {d : Device} {j : TargetId} : (d.updSchedule f).entry j = d.entry j := rfl
@[simp] theorem updSchedule_slot_frame {f : Schedule → Schedule} {d : Device} {j : SlotId} : (d.updSchedule f).slot j = d.slot j := rfl
@[simp] theorem updSchedule_seg_frame {f : Schedule → Schedule} {d : Device} {j : SegId} : (d.updSchedule f).seg j = d.seg j := rfl
@[simp] theorem updInbox_entry_frame {f : Inbox → Inbox} {d : Device} {j : TargetId} : (d.updInbox f).entry j = d.entry j := rfl
@[simp] theorem updInbox_slot_frame {f : Inbox → Inbox} {d : Device} {j : SlotId} : (d.updInbox f).slot j = d.slot j := rfl
@[simp] theorem updInbox_seg_frame {f : Inbox → Inbox} {d : Device} {j : SegId} : (d.updInbox f).seg j = d.seg j := rfl
@[simp] theorem updReports_entry_frame {f : ReportQueue → ReportQueue} {d : Device} {j : TargetId} : (d.updReports f).entry j = d.entry j := rfl
@[simp] theorem updReports_slot_frame {f : ReportQueue → ReportQueue} {d : Device} {j : SlotId} : (d.updReports f).slot j = d.slot j := rfl
@[simp] theorem updReports_seg_frame {f : ReportQueue → ReportQueue} {d : Device} {j : SegId} : (d.updReports f).seg j = d.seg j := rfl

end Sys2Proof.Machine
end

