-- ==== Sys2Proof/Laws/Actions.lean ====
section
/-! SUPPORT. What the shared actions can change: equality of devices by their parts, a poll entry after a write, and for each action the parts
it leaves as they are. -/

namespace Sys2Proof.Machine

/-! ## Equality by parts -/

theorem table_ext {α : Type} {n : Nat} {v w : Vector α n} (h : ∀ i, v.get i = w.get i) : v = w := by
  apply Vector.ext
  intro i hi
  exact h ⟨i, hi⟩

/-- Two devices are equal when all their parts are. -/
theorem Device.ext_parts {d e : Device} (entry : ∀ i, d.entry i = e.entry i) (slot : ∀ i, d.slot i = e.slot i)
    (seg : ∀ i, d.seg i = e.seg i) (inbox : d.inbox = e.inbox) (schedule : d.schedule = e.schedule) (reports : d.reports = e.reports)
    (port : d.port = e.port) (rstn : d.rstnLow = e.rstnLow) : d = e := by
  obtain ⟨a, b, c, i, s, r, p, x⟩ := d
  obtain ⟨a', b', c', i', s', r', p', x'⟩ := e
  have ha : a = a' := table_ext entry
  have hb : b = b' := table_ext slot
  have hc : c = c' := table_ext seg
  simp only at inbox schedule reports port rstn
  subst ha hb hc inbox schedule reports port rstn
  rfl

/-! ## Poll entries -/

@[simp] theorem other_other (x : Bank) : x.other.other = x := by cases x <;> rfl
@[simp] theorem other_ne (x : Bank) : x.other ≠ x := by cases x <;> decide
@[simp] theorem ne_other (x : Bank) : x ≠ x.other := by cases x <;> decide

theorem updBank_bank (s : Schedule) (x y : Bank) (f : PollBank → PollBank) :
    (s.updBank x f).bank y = if x = y then f (s.bank y) else s.bank y := by
  cases x <;> cases y <;> simp [Schedule.updBank, Schedule.bank]

theorem updBank_kept (s : Schedule) (x : Bank) (f : PollBank → PollBank) :
    (s.updBank x f).running = s.running ∧ (s.updBank x f).frameLength = s.frameLength ∧ (s.updBank x f).frame = s.frame ∧
    (s.updBank x f).timer = s.timer ∧ (s.updBank x f).active = s.active ∧ (s.updBank x f).swapPending = s.swapPending := by
  cases x <;> exact ⟨rfl, rfl, rfl, rfl, rfl, rfl⟩

/-- A poll entry after a write of one: the written one, or what stood there. -/
theorem setPoll_poll (d : Device) (x y : Bank) (i j : PollId) (e : Option PollEntry) :
    (d.setPoll x i e).poll y j = if x = y ∧ i = j then e else d.poll y j := by
  unfold Device.setPoll Device.poll
  rw [updSchedule_schedule, updBank_bank]
  by_cases hx : x = y
  · subst hx
    simp [upd_get]
  · simp [hx]

/-! ## The parts an action leaves as they are -/

/-- The parts that posting a report leaves: all but the report list and its next number (08 R150). -/
theorem post_kept (b : ReportBody) (d : Device) :
    (post b d).directory = d.directory ∧ (post b d).pool = d.pool ∧ (post b d).segments = d.segments ∧ (post b d).inbox = d.inbox ∧
    (post b d).schedule = d.schedule ∧ (post b d).port = d.port ∧ (post b d).rstnLow = d.rstnLow := ⟨rfl, rfl, rfl, rfl, rfl, rfl, rfl⟩

@[simp] theorem post_entry (b : ReportBody) (d : Device) (i : TargetId) : (post b d).entry i = d.entry i := rfl
@[simp] theorem post_slot (b : ReportBody) (d : Device) (i : SlotId) : (post b d).slot i = d.slot i := rfl
@[simp] theorem post_seg (b : ReportBody) (d : Device) (i : SegId) : (post b d).seg i = d.seg i := rfl
@[simp] theorem post_inbox (b : ReportBody) (d : Device) : (post b d).inbox = d.inbox := rfl
@[simp] theorem post_schedule (b : ReportBody) (d : Device) : (post b d).schedule = d.schedule := rfl
@[simp] theorem post_reports (b : ReportBody) (d : Device) : (post b d).reports = d.reports.post b := rfl
@[simp] theorem post_port (b : ReportBody) (d : Device) : (post b d).port = d.port := rfl
@[simp] theorem post_rstnLow (b : ReportBody) (d : Device) : (post b d).rstnLow = d.rstnLow := rfl

theorem queuePost_kept (b : ReportBody) (q : ReportQueue) : (q.post b).mask = q.mask ∧ (q.post b).mark = q.mark := by
  unfold ReportQueue.post
  split
  · exact ⟨rfl, rfl⟩
  · split
    · exact ⟨rfl, rfl⟩
    · split <;> exact ⟨rfl, rfl⟩

@[simp] theorem setPoll_entry_frame (d : Device) (x : Bank) (k : PollId) (e : Option PollEntry) (i : TargetId) :
    (d.setPoll x k e).entry i = d.entry i := rfl
@[simp] theorem setPoll_slot_frame (d : Device) (x : Bank) (k : PollId) (e : Option PollEntry) (i : SlotId) :
    (d.setPoll x k e).slot i = d.slot i := rfl
@[simp] theorem setPoll_seg_frame (d : Device) (x : Bank) (k : PollId) (e : Option PollEntry) (i : SegId) :
    (d.setPoll x k e).seg i = d.seg i := rfl
@[simp] theorem setPoll_inbox (d : Device) (x : Bank) (k : PollId) (e : Option PollEntry) : (d.setPoll x k e).inbox = d.inbox := rfl
@[simp] theorem setPoll_reports (d : Device) (x : Bank) (k : PollId) (e : Option PollEntry) : (d.setPoll x k e).reports = d.reports := rfl
@[simp] theorem setPoll_port (d : Device) (x : Bank) (k : PollId) (e : Option PollEntry) : (d.setPoll x k e).port = d.port := rfl
@[simp] theorem setPoll_rstnLow (d : Device) (x : Bank) (k : PollId) (e : Option PollEntry) : (d.setPoll x k e).rstnLow = d.rstnLow := rfl

/-- What an action leaves that touches directory entries' references and presence, reports, and poll entries at most: every slot and
segment, the inbox, the port, the pins, the schedule's own state, the report mask and mark. -/
structure SlotsKept (d t : Device) : Prop where
  slot : ∀ i, t.slot i = d.slot i
  seg : ∀ i, t.seg i = d.seg i
  inbox : t.inbox = d.inbox
  port : t.port = d.port
  rstn : t.rstnLow = d.rstnLow
  running : t.schedule.running = d.schedule.running
  timer : t.schedule.timer = d.schedule.timer
  frame : t.schedule.frame = d.schedule.frame
  frameLength : t.schedule.frameLength = d.schedule.frameLength
  active : t.schedule.active = d.schedule.active
  swapPending : t.schedule.swapPending = d.schedule.swapPending
  mask : t.reports.mask = d.reports.mask
  mark : t.reports.mark = d.reports.mark

theorem SlotsKept.refl (d : Device) : SlotsKept d d :=
  ⟨fun _ => rfl, fun _ => rfl, rfl, rfl, rfl, rfl, rfl, rfl, rfl, rfl, rfl, rfl, rfl⟩

theorem SlotsKept.trans {d e t : Device} (h : SlotsKept d e) (k : SlotsKept e t) : SlotsKept d t :=
  ⟨fun i => (k.slot i).trans (h.slot i), fun i => (k.seg i).trans (h.seg i), k.inbox.trans h.inbox, k.port.trans h.port, k.rstn.trans h.rstn,
    k.running.trans h.running, k.timer.trans h.timer, k.frame.trans h.frame, k.frameLength.trans h.frameLength, k.active.trans h.active,
    k.swapPending.trans h.swapPending, k.mask.trans h.mask, k.mark.trans h.mark⟩

theorem post_slotsKept (b : ReportBody) (d : Device) : SlotsKept d (post b d) :=
  ⟨fun _ => rfl, fun _ => rfl, rfl, rfl, rfl, rfl, rfl, rfl, rfl, rfl, rfl, (queuePost_kept b d.reports).1, (queuePost_kept b d.reports).2⟩

theorem updEntry_slotsKept (i : TargetId) (f : Entry → Entry) (d : Device) : SlotsKept d (d.updEntry i f) :=
  ⟨fun _ => rfl, fun _ => rfl, rfl, rfl, rfl, rfl, rfl, rfl, rfl, rfl, rfl, rfl, rfl⟩

theorem setPoll_slotsKept (x : Bank) (k : PollId) (e : Option PollEntry) (d : Device) : SlotsKept d (d.setPoll x k e) := by
  obtain ⟨h1, h2, h3, h4, h5, h6⟩ := updBank_kept d.schedule x fun v => upd v k fun _ => e
  exact ⟨fun _ => rfl, fun _ => rfl, rfl, rfl, rfl, h1, h4, h3, h2, h5, h6, rfl, rfl⟩

theorem raiseRef_slotsKept (i : TargetId) (d : Device) : SlotsKept d (raiseRef i d) := updEntry_slotsKept ..

theorem releaseRef_slotsKept (i : TargetId) (d : Device) : SlotsKept d (releaseRef i d) := by
  unfold releaseRef
  dsimp only
  split
  · exact (updEntry_slotsKept ..).trans (post_slotsKept ..)
  · exact updEntry_slotsKept ..

theorem raiseTarget_slotsKept (t : Target) (d : Device) : SlotsKept d (raiseTarget t d) := by
  cases t
  · exact raiseRef_slotsKept ..
  · exact .refl d

theorem releaseTarget_slotsKept (t : Target) (d : Device) : SlotsKept d (releaseTarget t d) := by
  cases t
  · exact releaseRef_slotsKept ..
  · exact .refl d

theorem ackEvent_slotsKept (i : TargetId) (d : Device) : SlotsKept d (ackEvent i d) := by
  unfold ackEvent
  dsimp only
  split
  · exact (updEntry_slotsKept ..).trans (post_slotsKept ..)
  · exact (updEntry_slotsKept ..).trans (post_slotsKept ..)
  · exact updEntry_slotsKept ..
  · exact updEntry_slotsKept ..
  · exact .refl d
  · exact .refl d

theorem nakEvent_slotsKept (i : TargetId) (d : Device) : SlotsKept d (nakEvent i d) := by
  unfold nakEvent
  dsimp only
  split
  · split
    · exact (updEntry_slotsKept ..).trans (post_slotsKept ..)
    · exact updEntry_slotsKept ..
  · split
    · exact (updEntry_slotsKept ..).trans (post_slotsKept ..)
    · exact updEntry_slotsKept ..
  · split
    · exact (updEntry_slotsKept ..).trans (post_slotsKept ..)
    · exact updEntry_slotsKept ..
  · exact updEntry_slotsKept ..
  · exact .refl d
  · exact .refl d

theorem addressEvent_slotsKept (t : Target) (b : Option Bool) (d : Device) : SlotsKept d (addressEvent t b d) := by
  unfold addressEvent
  split
  · exact ackEvent_slotsKept ..
  · exact nakEvent_slotsKept ..
  · exact .refl d

theorem takePollResult_slotsKept (x : Bank) (k : PollId) (h : Handle) (r : ConvResult) (d : Device) :
    SlotsKept d (takePollResult x k h r d) := by
  unfold takePollResult
  split
  · exact .refl d
  · split
    · split
      · dsimp only
        split
        · unfold applySuccess
          refine SlotsKept.trans ?_ (setPoll_slotsKept ..)
          split
          · split
            · exact post_slotsKept ..
            · exact .refl d
          · exact post_slotsKept ..
          · exact .refl d
        · unfold applyFailure
          refine SlotsKept.trans ?_ (setPoll_slotsKept ..)
          split
          · exact .refl d
          · exact post_slotsKept ..
      · exact setPoll_slotsKept ..
    · exact .refl d

/-- A conversation that enters DONE changes its own slot alone among the slots, and no segment (02 R37 to R40). -/
structure OneSlot (i : SlotId) (d t : Device) : Prop where
  kept : SlotsKept (d.updSlot i fun _ => t.slot i) t

theorem OneSlot.other {i j : SlotId} {d t : Device} (h : OneSlot i d t) (ne : j ≠ i) : t.slot j = d.slot j := by
  rw [h.kept.slot j, updSlot_slot, if_neg (Ne.symm ne)]

theorem oneSlot_of {i : SlotId} {f : Slot → Slot} {d t : Device} (h : SlotsKept (d.updSlot i f) t) : OneSlot i d t := by
  refine ⟨⟨fun j => ?_, h.seg, h.inbox, h.port, h.rstn, h.running, h.timer, h.frame, h.frameLength, h.active, h.swapPending, h.mask, h.mark⟩⟩
  rw [updSlot_slot]
  split
  · next e => rw [e]
  · next e => rw [h.slot j, updSlot_slot, if_neg e]

theorem OneSlot.then {i : SlotId} {d e t : Device} (h : OneSlot i d e) (k : SlotsKept e t) : OneSlot i d t := by
  refine ⟨⟨fun j => ?_, fun j => (k.seg j).trans (h.kept.seg j), k.inbox.trans h.kept.inbox, k.port.trans h.kept.port,
    k.rstn.trans h.kept.rstn, k.running.trans h.kept.running, k.timer.trans h.kept.timer, k.frame.trans h.kept.frame,
    k.frameLength.trans h.kept.frameLength, k.active.trans h.kept.active, k.swapPending.trans h.kept.swapPending,
    k.mask.trans h.kept.mask, k.mark.trans h.kept.mark⟩⟩
  rw [k.slot j, h.kept.slot j, updSlot_slot, updSlot_slot, k.slot i]

theorem OneSlot.free {i : SlotId} {d e : Device} (h : OneSlot i d e) : OneSlot i d (freeSlot i e) := by
  refine ⟨⟨fun j => ?_, h.kept.seg, h.kept.inbox, h.kept.port, h.kept.rstn, h.kept.running, h.kept.timer, h.kept.frame,
    h.kept.frameLength, h.kept.active, h.kept.swapPending, h.kept.mask, h.kept.mark⟩⟩
  simp only [freeSlot, updSlot_slot]
  by_cases e1 : i = j
  · subst e1
    simp
  · simp [e1, h.other (Ne.symm e1)]

theorem finish_oneSlot (i : SlotId) (r : ConvResult) (d : Device) : OneSlot i d (finish i r d) := by
  unfold finish
  dsimp only
  have h := oneSlot_of (releaseTarget_slotsKept (d.slot i).conv.target (d.updSlot i fun s => { s with
      state := .done
      conv := { s.conv with result := some r, stop := none, assemblyTimer := none, deadlineTimer := none } }))
  split
  · exact h.then (post_slotsKept ..)
  · split
    · exact h.free
    · exact h.free.then (post_slotsKept ..)
  · exact h
  · exact (h.then (takePollResult_slotsKept ..)).free

/-- The slot of a host conversation in NOTIFY or QUIET mode after it entered DONE (02 R37, R38). -/
theorem finish_slot_held (i : SlotId) (r : ConvResult) (d : Device) (ho : (d.slot i).conv.origin = .host)
    (hm : (d.slot i).conv.mode ≠ some .fire) :
    (finish i r d).slot i = { d.slot i with
      state := .done
      conv := { (d.slot i).conv with result := some r, stop := none, assemblyTimer := none, deadlineTimer := none } } := by
  have h := releaseTarget_slotsKept (d.slot i).conv.target (d.updSlot i fun s => { s with
      state := .done
      conv := { s.conv with result := some r, stop := none, assemblyTimer := none, deadlineTimer := none } })
  unfold finish
  dsimp only
  split
  · rw [post_slot, h.slot, updSlot_slot_same]
  · next e => exact absurd e hm
  · rw [h.slot, updSlot_slot_same]
  · next e => exact absurd (ho.symm.trans e) (by simp)

/-- The slot of any other conversation is FREE again, its generation one up (02 R38, R40). -/
theorem finish_slot_freed (i : SlotId) (r : ConvResult) (d : Device)
    (h : (d.slot i).conv.origin ≠ .host ∨ (d.slot i).conv.mode = some .fire) :
    (finish i r d).slot i = ⟨(d.slot i).gen + 1#11, .free, .blank⟩ := by
  have hk := releaseTarget_slotsKept (d.slot i).conv.target (d.updSlot i fun s => { s with
      state := .done
      conv := { s.conv with result := some r, stop := none, assemblyTimer := none, deadlineTimer := none } })
  unfold finish
  dsimp only
  split
  · next ho hm => simp [ho, hm] at h
  · split
    · simp only [freeSlot, updSlot_slot_same]
      rw [hk.slot, updSlot_slot_same]
    · simp only [freeSlot, post_slot, updSlot_slot_same]
      rw [hk.slot, updSlot_slot_same]
  · next ho _ hm => exact absurd h (fun e => e.elim (fun e => e ho) hm)
  · simp only [freeSlot, updSlot_slot_same]
    rw [(takePollResult_slotsKept ..).slot, hk.slot, updSlot_slot_same]

end Sys2Proof.Machine
end

