-- ==== Sys2Proof/Laws/Closed.lean ====
section
/-! SUPPORT. What the actions below the port can do, said once: each keeps every property of the device that is closed under posting a
report, changing a slot, a gentle change of an entry, of a segment, of the schedule, and cutting a reception. -/

namespace Sys2Proof.Machine

/-- A change of a directory entry that keeps where it is and never revives a VACANT one. -/
def EntryKept (e e' : Entry) : Prop :=
  e' = .vacant ∨
    (e'.segment = e.segment ∧ e'.address = e.address ∧ (e.presence = .vacant → e'.presence = .vacant) ∧
      e'.threshold = e.threshold ∧ (e.misses ≤ e.threshold → e'.misses ≤ e.threshold))

/-- A change of a segment that leaves its reception and its configuration alone. -/
def SegKept (g g' : Segment) : Prop := g'.reception = g.reception ∧ g'.config = g.config

/-- A change of the schedule that neither starts nor stops it. -/
def ScheduleKept (s s' : Schedule) : Prop :=
  s'.running = s.running ∧ s'.timer = s.timer ∧ s'.frameLength = s.frameLength ∧ (s'.swapPending = true → s.swapPending = true)

/-- A property of the device that the primitive changes below the port keep. No block posts a REPORTS_LOST marker. -/
structure Closed (P : Device → Prop) : Prop where
  post : ∀ b d, b.lostCount = none → P d → P (post b d)
  slot : ∀ i f d, P d → P (d.updSlot i f)
  entry : ∀ i f d, EntryKept (d.entry i) (f (d.entry i)) → P d → P (d.updEntry i f)
  seg : ∀ i f d, SegKept (d.seg i) (f (d.seg i)) → P d → P (d.updSeg i f)
  sched : ∀ f d, ScheduleKept d.schedule (f d.schedule) → P d → P (d.updSchedule f)
  cut : ∀ i d, P d → P (cutReception i d)

variable {P : Device → Prop} {d : Device}

/-! ## Directory (01) -/

theorem raiseRef_closed (hP : Closed P) (i : TargetId) (h : P d) : P (raiseRef i d) :=
  hP.entry _ _ _ (Or.inr ⟨rfl, rfl, id, rfl, id⟩) h

theorem releaseRef_closed (hP : Closed P) (i : TargetId) (h : P d) : P (releaseRef i d) := by
  unfold releaseRef
  dsimp only
  split
  · exact hP.post _ _ rfl (hP.entry _ _ _ (Or.inl rfl) h)
  · exact hP.entry _ _ _ (Or.inr ⟨rfl, rfl, id, rfl, id⟩) h

theorem raiseTarget_closed (hP : Closed P) (t : Target) (h : P d) : P (raiseTarget t d) := by
  cases t
  · exact raiseRef_closed hP _ h
  · exact h

theorem releaseTarget_closed (hP : Closed P) (t : Target) (h : P d) : P (releaseTarget t d) := by
  cases t
  · exact releaseRef_closed hP _ h
  · exact h

theorem ackEvent_closed (hP : Closed P) (i : TargetId) (h : P d) : P (ackEvent i d) := by
  have key : (d.entry i).presence ≠ .vacant →
      P (d.updEntry i fun e => { e with presence := .present, misses := 0 }) := fun hv =>
    hP.entry _ _ _ (Or.inr ⟨rfl, rfl, fun e => absurd e hv, rfl, fun _ => Nat.zero_le _⟩) h
  unfold ackEvent
  dsimp only
  split <;> rename_i hp
  · exact hP.post _ _ rfl (key (by simp [hp]))
  · exact hP.post _ _ rfl (key (by simp [hp]))
  · exact key (by simp [hp])
  · exact key (by simp [hp])
  · exact h
  · exact h

theorem nakEvent_closed (hP : Closed P) (i : TargetId) (h : P d) : P (nakEvent i d) := by
  have key : (d.entry i).presence ≠ .vacant → ∀ p : Presence,
      P (d.updEntry i fun e => { e with presence := p, misses := min ((d.entry i).misses + 1) (d.entry i).threshold }) :=
    fun hv p => hP.entry _ _ _ (Or.inr ⟨rfl, rfl, fun e => absurd e hv, rfl, fun _ => Nat.min_le_right ..⟩) h
  have key2 : (d.entry i).presence ≠ .vacant →
      P (d.updEntry i fun e =>
        { e with
          misses := min ((d.entry i).misses + 1) (d.entry i).threshold
          presence := if e.presence = .present then .suspect else e.presence }) :=
    fun hv => hP.entry _ _ _ (Or.inr ⟨rfl, rfl, fun e => absurd e hv, rfl, fun _ => Nat.min_le_right ..⟩) h
  have key3 : (d.entry i).presence ≠ .vacant →
      P (d.updEntry i fun e => { e with misses := min ((d.entry i).misses + 1) (d.entry i).threshold }) :=
    fun hv => hP.entry _ _ _ (Or.inr ⟨rfl, rfl, fun e => absurd e hv, rfl, fun _ => Nat.min_le_right ..⟩) h
  unfold nakEvent
  dsimp only
  split <;> rename_i hp
  · split
    · exact hP.post _ _ rfl (key (by simp [hp]) .missing)
    · exact key2 (by simp [hp])
  · split
    · exact hP.post _ _ rfl (key (by simp [hp]) .missing)
    · exact key2 (by simp [hp])
  · split
    · exact hP.post _ _ rfl (key (by simp [hp]) .missing)
    · exact key2 (by simp [hp])
  · exact key3 (by simp [hp])
  · exact h
  · exact h

theorem addressEvent_closed (hP : Closed P) (t : Target) (s : Option Bool) (h : P d) : P (addressEvent t s d) := by
  unfold addressEvent
  split
  · exact ackEvent_closed hP _ h
  · exact nakEvent_closed hP _ h
  · exact h

/-! ## Poll Scheduler (07) -/

theorem setPoll_closed (hP : Closed P) (bank : Bank) (i : PollId) (e : Option PollEntry) (h : P d) : P (d.setPoll bank i e) := by
  refine hP.sched _ _ ?_ h
  cases bank <;> exact ⟨rfl, rfl, rfl, id⟩

theorem applySuccess_closed (hP : Closed P) (bank : Bank) (i : PollId) (e : PollEntry) (v : List Byte) (h : P d) :
    P (applySuccess bank i e v d) := by
  unfold applySuccess
  apply setPoll_closed hP
  split
  · split
    · exact hP.post _ _ rfl h
    · exact h
  · exact hP.post _ _ rfl h
  · exact h

theorem applyFailure_closed (hP : Closed P) (bank : Bank) (i : PollId) (e : PollEntry) (o : ConvOutcome) (h : P d) :
    P (applyFailure bank i e o d) := by
  unfold applyFailure
  apply setPoll_closed hP
  split
  · exact h
  · exact hP.post _ _ rfl h

theorem takePollResult_closed (hP : Closed P) (bank : Bank) (i : PollId) (hd : Handle) (r : ConvResult) (h : P d) :
    P (takePollResult bank i hd r d) := by
  unfold takePollResult
  split
  · exact h
  · split
    · split
      · dsimp only
        split
        · exact applySuccess_closed hP _ _ _ _ h
        · exact applyFailure_closed hP _ _ _ _ h
      · exact setPoll_closed hP _ _ _ h
    · exact h

theorem swapBanks_closed (hP : Closed P) (h : P d) : P (swapBanks d) := by
  unfold swapBanks
  refine hP.post _ _ rfl (hP.sched (fun _ => _) d ?_ h)
  unfold Schedule.shadow
  cases d.schedule.active <;> exact ⟨rfl, rfl, rfl, id⟩

theorem swapIfPending_closed (hP : Closed P) (h : P d) : P (swapIfPending d) := by
  unfold swapIfPending
  split
  · exact hP.sched _ _ ⟨rfl, rfl, rfl, fun e => by simp at e⟩ (swapBanks_closed hP h)
  · exact h

theorem clearShadowEntry_closed (hP : Closed P) (i : PollId) (h : P d) : P (clearShadowEntry i d) := by
  unfold clearShadowEntry
  split
  · exact h
  · exact releaseRef_closed hP _ (setPoll_closed hP _ _ _ h)

theorem writeShadowEntry_closed (hP : Closed P) (i : PollId) (c : PollConfig) (h : P d) : P (writeShadowEntry i c d) :=
  raiseRef_closed hP _ (setPoll_closed hP _ _ _ (clearShadowEntry_closed hP _ h))

/-- A chain of actions that each keep a property keeps it. -/
theorem foldl_keeps {α : Type} (f : Device → α → Device) (hf : ∀ d x, P d → P (f d x)) (l : List α) (h : P d) :
    P (l.foldl f d) := by
  induction l generalizing d with
  | nil => exact h
  | cons x l ih => exact ih (hf d x h)

/-! ## Conversation Pool and queues (02, 03) -/

theorem freeSlot_closed (hP : Closed P) (i : SlotId) (h : P d) : P (freeSlot i d) := hP.slot _ _ _ h

theorem placeConversation_closed (hP : Closed P) (i : SlotId) (st : SlotState) (c : Conv) (h : P d) :
    P (placeConversation i st c d) := raiseTarget_closed hP _ (hP.slot _ _ _ h)

theorem enqueue_kept (c : Class) (hd : Handle) (g : Segment) : SegKept g (g.enqueue c hd) := by
  cases c <;> exact ⟨rfl, rfl⟩

theorem queueConversation_closed (hP : Closed P) (i : SlotId) (h : P d) : P (queueConversation i d) :=
  hP.seg _ _ _ (enqueue_kept _ _ _) (hP.slot _ _ _ h)

theorem leaveQueue_closed (hP : Closed P) (i : SlotId) (h : P d) : P (leaveQueue i d) := hP.seg _ _ _ ⟨rfl, rfl⟩ h

theorem finish_closed (hP : Closed P) (i : SlotId) (r : ConvResult) (h : P d) : P (finish i r d) := by
  unfold finish
  dsimp only
  have h2 := releaseTarget_closed hP (d.slot i).conv.target
    (hP.slot i (fun s => { s with
      state := .done
      conv := { s.conv with result := some r, stop := none, assemblyTimer := none, deadlineTimer := none } }) d h)
  split
  · exact hP.post _ _ rfl h2
  · split
    · exact freeSlot_closed hP _ h2
    · exact hP.post _ _ rfl (freeSlot_closed hP _ h2)
  · exact h2
  · exact freeSlot_closed hP _ (takePollResult_closed hP _ _ _ _ h2)

theorem endQueued_closed (hP : Closed P) (i : SlotId) (o : ConvOutcome) (h : P d) : P (endQueued i o d) :=
  finish_closed hP _ _ (leaveQueue_closed hP _ h)

theorem setStop_closed (hP : Closed P) (i : SlotId) (c : StopCause) (h : P d) : P (setStop i c d) := hP.slot _ _ _ h

/-! ## The engine (04, 05) and the sweep (06) -/

theorem setContext_closed (hP : Closed P) (seg : SegId) (hd : Handle) (ctx : Context) (h : P d) : P (setContext seg hd ctx d) :=
  hP.seg _ _ _ ⟨rfl, rfl⟩ h

theorem setTransaction_closed (hP : Closed P) (seg : SegId) (hd : Handle) (ctx : Context) (r : Bool) (p : BusPos) (h : P d) :
    P (setTransaction seg hd ctx r p d) := setContext_closed hP _ _ _ h

theorem endConversation_closed (hP : Closed P) (seg : SegId) (hd : Handle) (ctx : Context) (o : ConvOutcome) (f : Option Nat)
    (h : P d) : P (endConversation seg hd ctx o f d) := hP.seg _ _ _ ⟨rfl, rfl⟩ (finish_closed hP _ _ h)

theorem endStopped_closed (hP : Closed P) (seg : SegId) (hd : Handle) (ctx : Context) (c : StopCause) (h : P d) :
    P (endStopped seg hd ctx c d) := endConversation_closed hP _ _ _ _ _ h

theorem endFailed_closed (hP : Closed P) (seg : SegId) (hd : Handle) (ctx : Context) (o : ConvOutcome) (h : P d) :
    P (endFailed seg hd ctx o d) := endConversation_closed hP _ _ _ _ _ h

theorem enterWaitFree_closed (hP : Closed P) (seg : SegId) (hd : Handle) (ctx : Context) (h : P d) :
    P (enterWaitFree seg hd ctx d) := by
  unfold enterWaitFree
  split
  · exact endStopped_closed hP _ _ _ _ h
  · exact setTransaction_closed hP _ _ _ _ _ h

theorem enterStep_closed (hP : Closed P) (seg : SegId) (hd : Handle) (ctx : Context) (h : P d) : P (enterStep seg hd ctx d) := by
  unfold enterStep
  split
  · exact endConversation_closed hP _ _ _ _ _ h
  · split
    · exact endStopped_closed hP _ _ _ _ h
    · exact setContext_closed hP _ _ _ h
  · exact enterWaitFree_closed hP _ _ _ h

theorem afterSuccess_closed (hP : Closed P) (seg : SegId) (hd : Handle) (ctx : Context) (r : Bool) (st : Step) (bs : List Byte)
    (h : P d) : P (afterSuccess seg hd ctx r st bs d) := by
  unfold afterSuccess
  split
  · exact hP.seg _ _ _ ⟨rfl, rfl⟩ (setTransaction_closed hP _ _ _ _ _ h)
  · split
    · dsimp only
      split
      · exact enterStep_closed hP _ _ _ h
      · split
        · exact endFailed_closed hP _ _ _ _ h
        · split
          · exact endStopped_closed hP _ _ _ _ h
          · exact setContext_closed hP _ _ _ h
    · dsimp only
      split
      · exact hP.seg _ _ _ ⟨rfl, rfl⟩ (setTransaction_closed hP _ _ _ _ _ h)
      · exact enterStep_closed hP _ _ _ h

theorem afterRetryable_closed (hP : Closed P) (seg : SegId) (hd : Handle) (ctx : Context) (o : ConvOutcome) (h : P d) :
    P (afterRetryable seg hd ctx o d) := by
  unfold afterRetryable
  dsimp only
  split
  · exact setContext_closed hP _ _ _ h
  · exact endFailed_closed hP _ _ _ _ h

theorem afterArbLost_closed (hP : Closed P) (seg : SegId) (hd : Handle) (ctx : Context) (h : P d) :
    P (afterArbLost seg hd ctx d) := by
  unfold afterArbLost
  dsimp only
  split
  · exact endStopped_closed hP _ _ _ _ h
  · split
    · exact setTransaction_closed hP _ _ _ _ _ h
    · exact endFailed_closed hP _ _ _ _ h

theorem classify_closed (hP : Closed P) (seg : SegId) (hd : Handle) (ctx : Context) (r : Bool) (st : Step) (o : TxnOutcome)
    (bs : List Byte) (h : P d) : P (classify seg hd ctx r st o bs d) := by
  unfold classify
  split
  · exact afterSuccess_closed hP _ _ _ _ _ _ h
  · split
    · exact afterSuccess_closed hP _ _ _ _ _ _ h
    · exact endFailed_closed hP _ _ _ _ h
  · exact afterRetryable_closed hP _ _ _ _ h
  · exact afterRetryable_closed hP _ _ _ _ h
  · exact endFailed_closed hP _ _ _ _ h
  · exact afterArbLost_closed hP _ _ _ h
  · exact endFailed_closed hP _ _ _ _ h
  · exact endFailed_closed hP _ _ _ _ h

theorem placeStop_closed (hP : Closed P) (seg : SegId) (h : P d) : P (placeStop seg d) := hP.seg _ _ _ ⟨rfl, rfl⟩ h

theorem rearm_kept (g : Segment) : SegKept g g.rearm := by
  unfold Segment.rearm Segment.disarm
  split <;> exact ⟨rfl, rfl⟩

theorem alrFell_kept (g : Segment) : SegKept g g.alrFell := by
  unfold Segment.alrFell
  split <;> exact ⟨rfl, rfl⟩

theorem sweepResponder_closed (hP : Closed P) (seg : SegId) (a : Addr) (h : P d) : P (sweepResponder seg a d) := by
  unfold sweepResponder
  refine hP.seg _ _ _ (rearm_kept _) ?_
  split
  · exact ackEvent_closed hP _ (hP.post _ _ rfl h)
  · exact hP.post _ _ rfl h

theorem sweepEmpty_closed (hP : Closed P) (seg : SegId) (h : P d) : P (sweepEmpty seg d) := by
  unfold sweepEmpty
  dsimp only
  split
  · exact hP.seg _ _ _ ⟨rfl, rfl⟩ h
  · split
    · exact hP.seg _ _ _ ⟨rfl, rfl⟩ h
    · exact hP.post _ _ rfl (hP.seg _ _ _ ⟨rfl, rfl⟩ h)

theorem endSweep_closed (hP : Closed P) (seg : SegId) (h : P d) : P (endSweep seg d) := hP.seg _ _ _ ⟨rfl, rfl⟩ h

theorem sweepEnds_closed (hP : Closed P) (seg : SegId) (n : Option Nat) (bs : List Byte) (h : P d) : P (sweepEnds seg n bs d) := by
  unfold sweepEnds
  split
  · exact endSweep_closed hP _ (sweepResponder_closed hP _ _ h)
  · exact endSweep_closed hP _ (sweepEmpty_closed hP _ h)

theorem enterFault_closed (hP : Closed P) (seg : SegId) (k : FaultKind) (r : Option (Handle × Nat)) (b : Option Nat) (h : P d) :
    P (enterFault seg k r b d) := hP.seg _ _ _ ⟨rfl, rfl⟩ h

theorem enterRecovering_closed (hP : Closed P) (seg : SegId) (fb : Bool) (h : P d) : P (enterRecovering seg fb d) :=
  hP.seg _ _ _ ⟨rfl, rfl⟩ (hP.cut _ _ h)

theorem ownStart_closed (hP : Closed P) (seg : SegId) (p : BusPos) (h : P d) : P (ownStart seg p d) := by
  unfold ownStart
  split
  · exact hP.seg _ _ _ ⟨rfl, rfl⟩ h
  · exact h

theorem wireFault_closed (hP : Closed P) (seg : SegId) (k : FaultKind) (p : BusPos) (h : P d) : P (wireFault seg k p d) := by
  unfold wireFault
  split
  · exact h
  · exact enterRecovering_closed hP _ _ (endFailed_closed hP _ _ _ _
      (enterFault_closed hP _ _ _ _ (addressEvent_closed hP _ _ (ownStart_closed hP _ _ h))))
  · exact enterRecovering_closed hP _ _ (endSweep_closed hP _
      (hP.seg _ _ _ (rearm_kept _) (enterFault_closed hP _ _ _ _ (ownStart_closed hP _ _ h))))

theorem lineWatchFires_closed (hP : Closed P) (seg : SegId) (h : P d) : P (lineWatchFires seg d) := by
  unfold lineWatchFires
  split
  · exact enterRecovering_closed hP _ _ (enterFault_closed hP _ _ _ _ h)
  · exact wireFault_closed hP _ _ _ h

theorem takeNote_closed (hP : Closed P) (n : Option WireNote) (h : P d) : P (takeNote n d) := by
  unfold takeNote
  split
  · exact h
  · split
    · exact hP.seg _ _ _ ⟨rfl, rfl⟩ (ownStart_closed hP _ _ h)
    · exact h

/-! ### Selection (03 R47 to R50) -/

theorem choose_kept {g left : Segment} {hd : Handle} (hc : g.choose = some (hd, left)) : SegKept g left := by
  unfold Segment.choose at hc
  split at hc
  · simp at hc
  · simp at hc; rw [← hc.2]; exact ⟨rfl, rfl⟩
  · simp at hc; rw [← hc.2]; exact ⟨rfl, rfl⟩
  · split at hc <;> (simp at hc; rw [← hc.2]; exact ⟨rfl, rfl⟩)

theorem startConversation_closed (hP : Closed P) (seg : SegId) (h : P d) : P (startConversation seg d) := by
  unfold startConversation
  dsimp only
  split
  · split
    · exact h
    · next hd left hc =>
      have hk : SegKept (d.seg seg) { left with state := .active } := choose_kept (left := left) hc
      exact enterStep_closed hP _ _ _ (hP.slot _ _ _ (hP.seg _ (fun _ => _) _ hk h))
  · exact h

theorem startSweep_closed (hP : Closed P) (seg : SegId) (h : P d) : P (startSweep seg d) := by
  unfold startSweep
  dsimp only
  split
  · exact hP.seg _ _ _ ⟨rfl, rfl⟩ h
  · exact h

theorem makeSelection_closed (hP : Closed P) (seg : SegId) (h : P d) : P (makeSelection seg d) := by
  unfold makeSelection
  split
  · split
    · exact startSweep_closed hP _ h
    · exact startConversation_closed hP _ h
  · exact h
  · exact h

theorem mayArm_closed (hP : Closed P) (seg : SegId) (f : Segment → Segment) (hf : SegKept (d.seg seg) (f (d.seg seg))) (h : P d) :
    P (mayArm seg f d) := by
  have hu := hP.seg _ _ _ hf h
  unfold mayArm
  dsimp only
  split
  · exact makeSelection_closed hP _ hu
  · exact hu

theorem selectIfJoined_closed (hP : Closed P) (before : Device) (seg : SegId) (h : P d) : P (selectIfJoined before d seg) := by
  unfold selectIfJoined
  split
  · exact h
  · exact makeSelection_closed hP _ h

theorem selectAfterJoins_closed (hP : Closed P) (before : Device) (h : P d) : P (selectAfterJoins before d) :=
  foldl_keeps _ (fun _ seg hd => selectIfJoined_closed hP before seg hd) _ h

theorem takeStopInWait_closed (hP : Closed P) (i : SlotId) (h : P d) : P (takeStopInWait i d) := by
  unfold takeStopInWait
  dsimp only
  split
  · split
    · exact makeSelection_closed hP _ (endStopped_closed hP _ _ _ _ h)
    · exact h
  · exact h

theorem startWaiting_closed (hP : Closed P) (seg : SegId) (h : P d) : P (startWaiting seg d) := by
  unfold startWaiting
  split
  · split
    · exact setTransaction_closed hP _ _ _ _ _ h
    · exact h
  · exact hP.seg _ _ _ ⟨rfl, rfl⟩ h
  · exact h

/-! ## Due evaluation (07) -/

theorem createInstance_closed (hP : Closed P) (bank : Bank) (i : PollId) (e : PollEntry) (s : SlotId) (h : P d) :
    P (createInstance bank i e s d) :=
  setPoll_closed hP _ _ _ (queueConversation_closed hP _ (placeConversation_closed hP _ _ _ h))

theorem handleDue_closed (hP : Closed P) (bank : Bank) (i : PollId) (e : PollEntry) (h : P d) : P (handleDue bank i e d) := by
  unfold handleDue
  split
  · apply setPoll_closed hP
    split
    · exact hP.post _ _ rfl h
    · exact h
  · split
    · apply setPoll_closed hP
      split
      · exact h
      · exact hP.post _ _ rfl h
    · split
      · exact applyFailure_closed hP _ _ _ _ h
      · exact createInstance_closed hP _ _ _ _ h

theorem evaluateEntry_closed (hP : Closed P) (i : PollId) (h : P d) : P (evaluateEntry d i) := by
  unfold evaluateEntry
  split
  · exact h
  · split
    · exact handleDue_closed hP _ _ _ h
    · exact h

theorem evaluateFrame_closed (hP : Closed P) (h : P d) : P (evaluateFrame d) :=
  foldl_keeps _ (fun _ i hd => evaluateEntry_closed hP i hd) _ h

end Sys2Proof.Machine
end

