-- ==== Sys2Proof/Laws/Commands.lean ====
section
/-! SUPPORT. The requests and events that are made of the actions of Laws/Closed.lean alone keep what those keep. The others (the reception
of a byte, CONFIGURE_SEGMENT, ADD_TARGET, MODIFY_TARGET, the inbox requests, the start and the stop of the schedule, the port) stand apart. -/

namespace Sys2Proof.Machine

variable {P : Device → Prop} {d : Device}

/-! ## Events -/

theorem assemblyExpires_closed (hP : Closed P) (i : SlotId) (h : P d) : P (assemblyExpires i d) := by
  unfold assemblyExpires
  split
  · exact hP.post _ _ rfl (releaseTarget_closed hP _ (freeSlot_closed hP _ h))
  · exact h

theorem deadlineExpires_closed (hP : Closed P) (i : SlotId) (h : P d) : P (deadlineExpires i d) := by
  unfold deadlineExpires
  split
  · split
    · exact endQueued_closed hP _ _ h
    · exact takeStopInWait_closed hP _ (setStop_closed hP _ _ (hP.slot _ _ _ h))
    · exact h
    · exact h
    · exact h
  · exact h

theorem conversationTxnEnds_closed (hP : Closed P) (seg : SegId) (hd : Handle) (ctx : Context) (n : Option Nat) (bs : List Byte)
    (h : P d) : P (conversationTxnEnds seg hd ctx n bs d) := by
  unfold conversationTxnEnds
  dsimp only
  split
  · exact classify_closed hP _ _ _ _ _ _ _ (addressEvent_closed hP _ _ (placeStop_closed hP _ h))
  · exact h

theorem transactionEnds_closed (hP : Closed P) (seg : SegId) (n : Option Nat) (bs : List Byte) (h : P d) :
    P (transactionEnds seg n bs d) := by
  unfold transactionEnds
  split
  · split
    · exact conversationTxnEnds_closed hP _ _ _ _ _ h
    · exact sweepEnds_closed hP _ _ _ (placeStop_closed hP _ h)
    · exact h
  · exact h

theorem losesArbitration_closed (hP : Closed P) (seg : SegId) (n : Nat) (h : P d) : P (losesArbitration seg n d) := by
  unfold losesArbitration
  split
  · dsimp only
    split
    · exact afterArbLost_closed hP _ _ _ (addressEvent_closed hP _ _ (hP.seg _ _ _ ⟨rfl, rfl⟩ h))
    · exact endSweep_closed hP _ (hP.seg _ _ _ ⟨rfl, rfl⟩ (hP.seg _ _ _ ⟨rfl, rfl⟩ h))
    · exact h
  · exact h

theorem retryGapExpires_closed (hP : Closed P) (seg : SegId) (h : P d) : P (retryGapExpires seg d) := by
  unfold retryGapExpires
  split
  · split
    · exact makeSelection_closed hP _ (enterWaitFree_closed hP _ _ _ h)
    · exact h
  · exact h
  · exact h

theorem intervalExpires_closed (hP : Closed P) (seg : SegId) (h : P d) : P (intervalExpires seg d) := by
  unfold intervalExpires
  split
  · split
    · exact makeSelection_closed hP _ (enterWaitFree_closed hP _ _ _ h)
    · exact h
  · exact h
  · exact h

theorem pauseExpires_closed (hP : Closed P) (seg : SegId) (h : P d) : P (pauseExpires seg d) := by
  unfold pauseExpires
  split
  · split
    · exact makeSelection_closed hP _ (enterStep_closed hP _ _ _ h)
    · exact h
  · exact h
  · exact h

theorem stalls_closed (hP : Closed P) (seg : SegId) (p : BusPos) (h : P d) : P (stalls seg p d) := by
  unfold stalls
  split
  · exact wireFault_closed hP _ _ _ h
  · exact h

theorem faults_closed (hP : Closed P) (seg : SegId) (s : FaultSite) (h : P d) : P (faults seg s d) := by
  unfold faults
  split
  · split
    · exact lineWatchFires_closed hP _ h
    · exact h
  · split
    · exact wireFault_closed hP _ _ _ h
    · exact h
  · split
    · exact wireFault_closed hP _ _ _ h
    · exact h

theorem receptionStalls_closed (hP : Closed P) (seg : SegId) (h : P d) : P (receptionStalls seg d) := by
  unfold receptionStalls
  split
  · dsimp only
    split
    · exact lineWatchFires_closed hP _ (hP.cut _ _ h)
    · exact hP.cut _ _ h
  · exact h

theorem recovers_kept (n : Nat) (g : Segment) : SegKept g
    (let g' : Segment := { g with state := .idle, fromBlocked := false, pulses := n }
     if g'.alrLow then g'.alrFell else g') := by
  dsimp only
  split
  · exact alrFell_kept { g with state := .idle, fromBlocked := false, pulses := n }
  · exact ⟨rfl, rfl⟩

theorem recoverySucceeds_closed (hP : Closed P) (seg : SegId) (l : RecoveryLines) (h : P d) : P (recoverySucceeds seg l d) := by
  unfold recoverySucceeds
  split
  · split
    · unfold recovers
      dsimp only
      refine hP.seg _ _ _ (recovers_kept _ _) (placeStop_closed hP _ ?_)
      split
      · exact hP.post _ _ rfl h
      · exact h
    · exact h
  · exact h

theorem recoveryFails_closed (hP : Closed P) (seg : SegId) (l : RecoveryLines) (h : P d) : P (recoveryFails seg l d) := by
  unfold recoveryFails
  split
  · split
    · exact hP.post _ _ rfl (hP.seg _ _ _ ⟨rfl, rfl⟩ (enterFault_closed hP _ _ _ _ h))
    · exact h
  · exact h

theorem becomesFree_closed (hP : Closed P) (seg : SegId) (h : P d) : P (becomesFree seg d) :=
  makeSelection_closed hP _ (startWaiting_closed hP _ (hP.seg _ _ _ ⟨rfl, rfl⟩ h))

theorem freeTimeExpires_closed (hP : Closed P) (seg : SegId) (h : P d) : P (freeTimeExpires seg d) := by
  unfold freeTimeExpires
  split
  · exact becomesFree_closed hP _ h
  · exact h

theorem idleTimeout_closed (hP : Closed P) (seg : SegId) (h : P d) : P (idleTimeout seg d) := by
  unfold idleTimeout
  split
  · exact becomesFree_closed hP _ (hP.cut _ _ h)
  · exact h

theorem alrFalls_closed (hP : Closed P) (seg : SegId) (h : P d) : P (alrFalls seg d) := by
  refine mayArm_closed hP _ _ ?_ h
  dsimp only
  split
  · exact ⟨rfl, rfl⟩
  · exact alrFell_kept { d.seg seg with alrLow := true }

theorem alrRises_closed (hP : Closed P) (seg : SegId) (h : P d) : P (alrRises seg d) := by
  refine hP.seg _ _ _ ?_ h
  dsimp only
  split <;> exact ⟨rfl, rfl⟩

theorem holdoffExpires_closed (hP : Closed P) (seg : SegId) (h : P d) : P (holdoffExpires seg d) := by
  refine mayArm_closed hP _ _ ?_ h
  split
  · split <;> exact ⟨rfl, rfl⟩
  · exact ⟨rfl, rfl⟩

/-! ## Requests -/

theorem onSegment_keeps {body : List Byte} {f : SegId → Device → Reply × Device} (hf : ∀ s, P (f s d).2) (h : P d) :
    P (onSegment body f d).2 := by
  unfold onSegment
  split
  · exact h
  · exact hf _

theorem onConversation_keeps {body : List Byte} {f : SlotId → Device → Reply × Device} (hf : ∀ i, P (f i d).2) (h : P d) :
    P (onConversation body f d).2 := by
  unfold onConversation
  split
  · exact h
  · split
    · exact h
    · exact hf _

/-! ### A target that is not WITHDRAWING keeps its presence while its references go (01 R17) -/

theorem releaseRef_presence (i j : TargetId) (h : (d.entry i).presence ≠ .withdrawing) :
    ((releaseRef j d).entry i).presence = (d.entry i).presence := by
  unfold releaseRef
  dsimp only
  split
  · next hw =>
    have hij : j ≠ i := fun e => h (e ▸ hw.1)
    simp [post, updEntry_entry, hij]
  · simp only [updEntry_entry]
    split <;> rfl

theorem setPoll_entry (bank : Bank) (k : PollId) (e : Option PollEntry) (i : TargetId) :
    (d.setPoll bank k e).entry i = d.entry i := rfl

theorem clearShadowEntry_presence (i : TargetId) (k : PollId) (h : (d.entry i).presence ≠ .withdrawing) :
    ((clearShadowEntry k d).entry i).presence = (d.entry i).presence := by
  unfold clearShadowEntry
  split
  · rfl
  · rw [releaseRef_presence]
    · rfl
    · exact h

theorem takePollResult_entry (bank : Bank) (k : PollId) (hd : Handle) (r : ConvResult) (i : TargetId) :
    (takePollResult bank k hd r d).entry i = d.entry i := by
  have hf : ∀ e o, (applyFailure bank k e o d).entry i = d.entry i := fun e o => by
    unfold applyFailure
    rw [setPoll_entry]
    split <;> rfl
  have hs : ∀ e v, (applySuccess bank k e v d).entry i = d.entry i := fun e v => by
    unfold applySuccess
    rw [setPoll_entry]
    split
    · split <;> rfl
    · rfl
    · rfl
  unfold takePollResult
  split
  · rfl
  · split
    · split
      · dsimp only
        split
        · exact hs _ _
        · exact hf _ _
      · rfl
    · rfl

theorem releaseTarget_presence (i : TargetId) (t : Target) (h : (d.entry i).presence ≠ .withdrawing) :
    ((releaseTarget t d).entry i).presence = (d.entry i).presence := by
  cases t
  · exact releaseRef_presence _ _ h
  · rfl

theorem finish_presence (i : TargetId) (k : SlotId) (r : ConvResult) (h : (d.entry i).presence ≠ .withdrawing) :
    ((finish k r d).entry i).presence = (d.entry i).presence := by
  have key := releaseTarget_presence (d := d.updSlot k fun s => { s with
      state := .done
      conv := { s.conv with result := some r, stop := none, assemblyTimer := none, deadlineTimer := none } })
    i (d.slot k).conv.target h
  unfold finish
  dsimp only
  split
  · exact key
  · split
    · exact key
    · exact key
  · exact key
  · show ((takePollResult _ _ _ _ _).entry i).presence = _
    rw [takePollResult_entry]
    exact key

theorem withdrawWaiting_presence (i t : TargetId) (k : SlotId) (h : (d.entry i).presence ≠ .withdrawing) :
    ((withdrawWaiting t d k).entry i).presence = (d.entry i).presence := by
  unfold withdrawWaiting
  split
  · split
    · exact finish_presence _ _ _ h
    · exact finish_presence (d := leaveQueue k d) _ _ _ h
    · rfl
    · rfl
    · rfl
  · rfl

/-- A chain of actions that each keep a standing entry's presence keeps it. -/
theorem foldl_presence {α : Type} (f : Device → α → Device) (i : TargetId)
    (hf : ∀ d x, (d.entry i).presence ≠ .withdrawing → ((f d x).entry i).presence = (d.entry i).presence)
    (l : List α) (h : (d.entry i).presence ≠ .withdrawing) :
    ((l.foldl f d).entry i).presence = (d.entry i).presence := by
  induction l generalizing d with
  | nil => rfl
  | cons x l ih => exact (ih (by rw [hf _ _ h]; exact h)).trans (hf _ _ h)

theorem withdrawWaiting_closed (hP : Closed P) (t : TargetId) (i : SlotId) (h : P d) : P (withdrawWaiting t d i) := by
  unfold withdrawWaiting
  split
  · split
    · exact finish_closed hP _ _ h
    · exact endQueued_closed hP _ _ h
    · exact h
    · exact h
    · exact h
  · exact h

theorem withdrawForced_closed (hP : Closed P) (i : TargetId) (hv : (d.entry i).presence ≠ .vacant)
    (hw : (d.entry i).presence ≠ .withdrawing) (h : P d) : P (withdrawForced i d).2 := by
  unfold withdrawForced
  split
  · exact h
  · split
    · exact h
    · dsimp only
      generalize hd1 : (List.finRange 48).foldl (fun d k =>
          if (d.poll d.schedule.shadow k).any fun e => e.config.target == i then clearShadowEntry k d else d) d = d1
      have h1 : P d1 := hd1 ▸ foldl_keeps _ (fun d k hd => by
        split
        · exact clearShadowEntry_closed hP _ hd
        · exact hd) _ h
      have p1 : (d1.entry i).presence = (d.entry i).presence := hd1 ▸ foldl_presence _ i (fun d k hd => by
        split
        · exact clearShadowEntry_presence _ _ hd
        · rfl) _ hw
      generalize hd2 : (List.finRange 32).foldl (withdrawWaiting i) d1 = d2
      have h2 : P d2 := hd2 ▸ foldl_keeps _ (fun d k hd => withdrawWaiting_closed hP i k hd) _ h1
      have p2 : (d2.entry i).presence = (d1.entry i).presence :=
        hd2 ▸ foldl_presence _ i (fun d k hd => withdrawWaiting_presence i i k hd) _ (p1 ▸ hw)
      generalize hd3 : (runningOn i d2).foldl (fun d k => setStop k .withdrawn d) d2 = d3
      have h3 : P d3 := hd3 ▸ foldl_keeps _ (fun d k hd => setStop_closed hP k .withdrawn hd) _ h2
      have p3 : (d3.entry i).presence = (d2.entry i).presence :=
        hd3 ▸ foldl_presence (fun d k => setStop k .withdrawn d) i (fun d k hd => rfl) _ (p2.trans p1 ▸ hw)
      split
      · exact hP.entry _ _ _ (Or.inl rfl) h3
      · refine foldl_keeps _ (fun d k hd => takeStopInWait_closed hP k hd) _ (hP.entry _ _ _ (Or.inr ?_) h3)
        exact ⟨rfl, rfl, fun e => absurd (p3.trans (p2.trans p1) ▸ e) hv, rfl, id⟩

theorem requestWithdrawTarget_closed (hP : Closed P) (body : List Byte) (h : P d) : P (requestWithdrawTarget body d).2 := by
  unfold requestWithdrawTarget
  split
  · exact h
  · split
    · exact h
    · split
      · exact h
      · split
        · exact h
        · split
          · unfold withdrawNormal
            split
            · exact hP.entry _ _ _ (Or.inl rfl) h
            · exact h
          · next hv hw _ => exact withdrawForced_closed hP _ hv hw h

theorem requestReadTarget_keeps (body : List Byte) : (requestReadTarget body d).2 = d := by
  unfold requestReadTarget
  split <;> rfl

theorem requestListTargets_keeps (body : List Byte) : (requestListTargets body d).2 = d := by
  unfold requestListTargets
  split <;> rfl

theorem requestSegmentStatus_keeps (body : List Byte) : (requestSegmentStatus body d).2 = d := by
  unfold requestSegmentStatus onSegment
  split <;> rfl

theorem requestHoldSegment_closed (hP : Closed P) (body : List Byte) (h : P d) : P (requestHoldSegment body d).2 :=
  onSegment_keeps (fun _ => hP.seg _ _ _ ⟨rfl, rfl⟩ h) h

theorem requestReleaseSegment_closed (hP : Closed P) (body : List Byte) (h : P d) : P (requestReleaseSegment body d).2 :=
  onSegment_keeps (fun _ => by
    dsimp only
    split
    · exact makeSelection_closed hP _ (hP.seg _ _ _ ⟨rfl, rfl⟩ h)
    · exact h) h

theorem abortWork_closed (hP : Closed P) (seg : SegId) (h : P d) : P (abortWork seg d) := by
  unfold abortWork
  split
  · exact h
  · exact endSweep_closed hP _ h
  · exact endConversation_closed hP _ _ _ _ _ (addressEvent_closed hP _ _ h)

theorem requestResetSegment_closed (hP : Closed P) (body : List Byte) (h : P d) : P (requestResetSegment body d).2 := by
  refine onSegment_keeps (fun s => ?_) h
  dsimp only
  split
  · exact h
  · exact enterRecovering_closed hP _ _ (hP.seg _ _ _ ⟨rfl, rfl⟩ (abortWork_closed hP _ h))

theorem requestFlushSegment_closed (hP : Closed P) (body : List Byte) (h : P d) : P (requestFlushSegment body d).2 := by
  refine onSegment_keeps (fun s => hP.seg s _ _ ⟨rfl, rfl⟩ ?_) h
  exact foldl_keeps _ (fun d x hd => finish_closed hP _ _ (hP.seg s (Segment.dequeue x) d ⟨rfl, rfl⟩ hd)) _ h

theorem requestReadFault_closed (hP : Closed P) (body : List Byte) (h : P d) : P (requestReadFault body d).2 := by
  refine onSegment_keeps (fun s => ?_) h
  dsimp only
  split
  · exact hP.seg _ _ _ ⟨rfl, rfl⟩ h
  · exact h

theorem requestOpenConversation_closed (hP : Closed P) (body : List Byte) (h : P d) : P (requestOpenConversation body d).2 := by
  unfold requestOpenConversation
  split
  · exact h
  · split
    · exact h
    · split
      · exact h
      · exact placeConversation_closed hP _ _ _ h

theorem requestAppendSteps_closed (hP : Closed P) (body : List Byte) (h : P d) : P (requestAppendSteps body d).2 := by
  refine onConversation_keeps (fun i => ?_) h
  unfold appendSteps
  split
  · split
    · exact h
    · dsimp only
      split
      · split
        · exact hP.slot _ _ _ h
        · exact h
      · exact h
  · exact h

theorem requestSubmitConversation_closed (hP : Closed P) (body : List Byte) (h : P d) :
    P (requestSubmitConversation body d).2 := by
  refine onConversation_keeps (fun i => ?_) h
  unfold submitConversation
  dsimp only
  split
  · split
    · exact h
    · split
      · exact h
      · split
        · exact h
        · exact makeSelection_closed hP _ (queueConversation_closed hP _ h)
  · exact h

theorem requestRunConversation_closed (hP : Closed P) (body : List Byte) (h : P d) : P (requestRunConversation body d).2 := by
  have hr : ∀ hh ss, P (runChecked hh ss d).2 := fun hh ss => by
    unfold runChecked
    split
    · exact h
    · split
      · exact h
      · split
        · exact h
        · exact makeSelection_closed hP _ (queueConversation_closed hP _ (placeConversation_closed hP _ _ _ h))
  unfold requestRunConversation
  split
  · split
    · split
      · split
        · exact h
        · split
          · exact h
          · exact hr _ _
      · exact h
    · exact h
  · exact h

theorem requestCancelConversation_closed (hP : Closed P) (body : List Byte) (h : P d) :
    P (requestCancelConversation body d).2 := by
  refine onConversation_keeps (fun i => ?_) h
  unfold cancelConversation
  split
  · exact releaseTarget_closed hP _ (freeSlot_closed hP _ h)
  · exact endQueued_closed hP _ _ h
  · exact takeStopInWait_closed hP _ (setStop_closed hP _ _ h)
  · exact h
  · exact h

theorem requestConversationStatus_keeps (body : List Byte) : (requestConversationStatus body d).2 = d := by
  unfold requestConversationStatus onConversation
  split
  · rfl
  · split <;> rfl

theorem requestFetchResult_closed (hP : Closed P) (body : List Byte) (h : P d) : P (requestFetchResult body d).2 := by
  refine onConversation_keeps (fun i => ?_) h
  unfold fetchResult
  split
  · split
    · dsimp only
      split
      · exact freeSlot_closed hP _ h
      · exact h
    · exact h
  · exact h

theorem requestPutPoll_closed (hP : Closed P) (body : List Byte) (h : P d) : P (requestPutPoll body d).2 := by
  unfold requestPutPoll
  split
  · split
    · exact h
    · split
      · exact h
      · split
        · exact h
        · exact writeShadowEntry_closed hP _ _ h
  · exact h

theorem requestClearPoll_closed (hP : Closed P) (body : List Byte) (h : P d) : P (requestClearPoll body d).2 := by
  unfold requestClearPoll
  split
  · exact h
  · split
    · exact h
    · exact clearShadowEntry_closed hP _ h

theorem clearShadow_closed (hP : Closed P) (h : P d) : P (clearShadow d) :=
  foldl_keeps _ (fun _ i hd => clearShadowEntry_closed hP i hd) _ h

theorem requestClearShadow_closed (hP : Closed P) (body : List Byte) (h : P d) : P (requestClearShadow body d).2 := by
  unfold requestClearShadow
  by_cases hs : d.schedule.swapPending = true
  · rw [if_pos hs]; exact h
  · rw [if_neg hs]
    have hc : P (clearShadow d) := clearShadow_closed hP h
    dsimp only
    exact hc

theorem copyEntry_closed (hP : Closed P) (i : PollId) (h : P d) : P (copyEntry d i) := by
  unfold copyEntry
  split
  · exact h
  · exact writeShadowEntry_closed hP _ _ h

theorem requestCopyActive_closed (hP : Closed P) (body : List Byte) (h : P d) : P (requestCopyActive body d).2 := by
  unfold requestCopyActive
  by_cases hs : d.schedule.swapPending = true
  · rw [if_pos hs]; exact h
  · rw [if_neg hs]
    have hc : P ((List.finRange 48).foldl copyEntry (clearShadow d)) :=
      foldl_keeps _ (fun _ i hd => copyEntry_closed hP i hd) _ (clearShadow_closed hP h)
    dsimp only
    exact hc

theorem requestReadPoll_keeps (body : List Byte) : (requestReadPoll body d).2 = d := by
  unfold requestReadPoll
  split <;> rfl

end Sys2Proof.Machine
end

