-- ==== Sys2Proof/Laws/Port.lean ====
section
/-! SUPPORT. The port clocking a whole frame: what the bytes of a frame do to the parser while the outbound frame goes on. -/

namespace Sys2Proof.Machine

/-- The device with its parser and its outbound choice at given values. -/
def linkAt (q : Parser) (o : Outbound) (d : Device) : Device := d.updPort fun p => { p with parser := q, outbound := o }

theorem atDone_eq_linkAt (o : Outbound) (d : Device) : atDone o d = linkAt .done o d := rfl

theorem linkAt_self (d : Device) : linkAt d.port.parser d.port.outbound d = d := rfl

theorem Outbound.after_zero {o o' : Outbound} (h : o.after 0 = some o') : o' = o := by
  cases o <;> simp_all [Outbound.after]

theorem Outbound.after_add {o o' : Outbound} {m n : Nat} (h : o.after (m + n) = some o') :
    ∃ x, o.after m = some x ∧ x.after n = some o' := by
  cases o with
  | nothing => exact ⟨_, rfl, h⟩
  | delivered => exact ⟨_, rfl, h⟩
  | chosen r f k =>
    simp only [Outbound.after, Option.ite_none_right_eq_some] at h
    refine ⟨.chosen r f (k + m), ?_, ?_⟩
    · simp only [Outbound.after, if_pos (show k + m < f.length by omega)]
    · simp only [Outbound.after, Nat.add_assoc, if_pos h.1, h.2]

/-- A byte that does not deliver the outbound frame is handed to the parser. -/
theorem clockByte_linkAt {d : Device} (hd : d.port.transfer = .active) {q : Parser} {o o' : Outbound} (ho : o.after 1 = some o')
    (b : Byte) : clockByte (linkAt q o d) b = parseByte b (linkAt q o' d) := by
  have hout : clockOutByte (linkAt q o d) = linkAt q o' d := by
    cases o with
    | nothing => simp only [Outbound.after, Option.some.injEq] at ho; subst ho; rfl
    | delivered => simp only [Outbound.after, Option.some.injEq] at ho; subst ho; rfl
    | chosen r f k =>
      simp only [Outbound.after, Option.ite_none_right_eq_some, Option.some.injEq] at ho
      obtain ⟨hlt, rfl⟩ := ho
      simp only [clockOutByte, linkAt, updPort_port, if_pos hlt]
      rfl
  have ht : ∀ o, (linkAt q o d).port.transfer = .active := fun _ => hd
  simp only [clockByte, ht, hout, if_true]

theorem clockBytes_cons (b : Byte) (l : List Byte) (d : Device) : clockBytes (b :: l) d = clockBytes l (clockByte d b) := rfl

theorem clockBytes_append (l m : List Byte) (d : Device) : clockBytes (l ++ m) d = clockBytes m (clockBytes l d) := by
  simp [clockBytes]

/-- The body bytes of a frame, one after the other. -/
theorem clockBytes_body {d : Device} (hd : d.port.transfer = .active) (kind tag len : Byte) (body got : List Byte)
    {o o' : Outbound} (hlen : got.length + body.length = len.toNat) (hne : body ≠ []) (ho : o.after body.length = some o') :
    clockBytes body (linkAt (.body kind tag len got) o d) = linkAt (.check kind tag len (got ++ body) none) o' d := by
  induction body generalizing got o with
  | nil => exact absurd rfl hne
  | cons b rest ih =>
    obtain ⟨x, hx, hx'⟩ := Outbound.after_add (m := 1) (n := rest.length) (by rw [Nat.add_comm]; exact ho)
    rw [clockBytes_cons, clockByte_linkAt hd hx]
    cases rest with
    | nil =>
      have := Outbound.after_zero hx'
      subst this
      have hl : ¬ (got ++ [b]).length < len.toNat := by simp at hlen ⊢; omega
      simp only [parseByte, linkAt, updPort_port, if_neg hl]
      rfl
    | cons c rest =>
      have hl : (got ++ [b]).length < len.toNat := by simp at hlen ⊢; omega
      have hp : parseByte b (linkAt (.body kind tag len got) x d) = linkAt (.body kind tag len (got ++ [b])) x d := by
        simp only [parseByte, linkAt, updPort_port, if_pos hl]
        rfl
      rw [hp, ih (got ++ [b]) (by simp at hlen ⊢; omega) (by simp) hx']
      simp

/-- A whole frame clocked in HUNT, the outbound frame not delivered meanwhile: it is judged (09 R161, R162). -/
theorem clockBytes_frame {d : Device} (hd : d.port.transfer = .active) (hq : d.port.parser = .hunt) (kind tag : Byte)
    (body : List Byte) (c0 c1 : Byte) (hb : body.length ≤ 60) {o : Outbound}
    (ho : d.port.outbound.after (6 + body.length) = some o) :
    clockBytes ([marker, kind, tag, byte body.length] ++ (body ++ [c0, c1])) d =
      judgeFrame kind tag (byte body.length) body c0 c1 (atDone o d) := by
  have hlen : (byte body.length).toNat = body.length := by
    simp only [byte, BitVec.toNat_ofNat]
    omega
  have e : d = linkAt .hunt d.port.outbound d := by rw [← hq]; exact (linkAt_self d).symm
  obtain ⟨o1, h1, ho⟩ := Outbound.after_add (m := 1) (n := 5 + body.length) (by rw [← ho]; congr 1; omega)
  obtain ⟨o2, h2, ho⟩ := Outbound.after_add (m := 1) (n := 4 + body.length) (by rw [← ho]; congr 1; omega)
  obtain ⟨o3, h3, ho⟩ := Outbound.after_add (m := 1) (n := 3 + body.length) (by rw [← ho]; congr 1; omega)
  obtain ⟨o4, h4, ho⟩ := Outbound.after_add (m := 1) (n := 2 + body.length) (by rw [← ho]; congr 1; omega)
  obtain ⟨o5, h5, ho⟩ := Outbound.after_add (m := body.length) (n := 2) (by rw [← ho]; congr 1; omega)
  obtain ⟨o6, h6, h7⟩ := Outbound.after_add (m := 1) (n := 1) ho
  have p1 : clockByte d marker = linkAt .kind o1 d := by
    conv_lhs => rw [e]
    rw [clockByte_linkAt hd h1]
    simp [parseByte, linkAt, marker, setParser, Device.updPort]
  have p2 : clockByte (linkAt .kind o1 d) kind = linkAt (.tag kind) o2 d := by
    rw [clockByte_linkAt hd h2]; rfl
  have p3 : clockByte (linkAt (.tag kind) o2 d) tag = linkAt (.length kind tag) o3 d := by
    rw [clockByte_linkAt hd h3]; rfl
  have p4 : clockByte (linkAt (.length kind tag) o3 d) (byte body.length) =
      if body = [] then linkAt (.check kind tag (byte body.length) [] none) o4 d
      else linkAt (.body kind tag (byte body.length) []) o4 d := by
    rw [clockByte_linkAt hd h4]
    have hz : byte body.length = 0#8 ↔ body = [] := by
      rw [← BitVec.toNat_inj, hlen]
      simp
    have hm : (byte body.length).toNat ≤ Config.maxBody := by rw [hlen]; exact hb
    simp only [parseByte, linkAt, updPort_port, takeLength, if_pos hm, hz]
    split <;> rfl
  have p5 : clockBytes body (clockByte (linkAt (.length kind tag) o3 d) (byte body.length)) =
      linkAt (.check kind tag (byte body.length) body none) o5 d := by
    rw [p4]
    split
    · next h0 =>
      subst h0
      have := Outbound.after_zero h5
      subst this
      rfl
    · next h0 => rw [clockBytes_body hd kind tag _ body [] (by simp [hlen]) h0 h5]; rfl
  have p6 : clockByte (linkAt (.check kind tag (byte body.length) body none) o5 d) c0 =
      linkAt (.check kind tag (byte body.length) body (some c0)) o6 d := by
    rw [clockByte_linkAt hd h6]; rfl
  have p7 : clockByte (linkAt (.check kind tag (byte body.length) body (some c0)) o6 d) c1 =
      judgeFrame kind tag (byte body.length) body c0 c1 (atDone o d) := by
    rw [clockByte_linkAt hd h7]; rfl
  show clockBytes (body ++ [c0, c1]) (clockByte (clockByte (clockByte (clockByte d marker) kind) tag) (byte body.length)) = _
  rw [clockBytes_append, p1, p2, p3, p5]
  show clockByte (clockByte _ c0) c1 = _
  rw [p6, p7]

theorem ofCode_code (k : RequestKind) : RequestKind.ofCode k.code = some k := by cases k <;> rfl

theorem checkBytes_pair (l : List Byte) : ∃ a b, checkBytes l = [a, b] := ⟨_, _, rfl⟩

/-- A request frame clocked in HUNT, the outbound frame not delivered meanwhile: the request is taken (09 R164). -/
theorem clockRequest_taken {d : Device} (hd : d.port.transfer = .active) (hq : d.port.parser = .hunt) (k : RequestKind)
    (tag : Byte) (body : List Byte) (hb : body.length ≤ 60) {o : Outbound} (ho : d.port.outbound.after (6 + body.length) = some o) :
    clockRequest k tag body d = takeRequest k tag body (atDone o d) := by
  obtain ⟨a, b, hab⟩ := checkBytes_pair (k.code :: tag :: byte body.length :: body)
  have hf : Frame.bytes ⟨k.code, tag, body⟩ = [marker, k.code, tag, byte body.length] ++ (body ++ [a, b]) := by
    simp [Frame.bytes, Frame.payload, hab]
  unfold clockRequest clockRest
  rw [hq, hf]
  show clockBytes ([marker, k.code, tag, byte body.length] ++ (body ++ [a, b])) d = _
  rw [clockBytes_frame hd hq k.code tag body a b hb ho]
  simp [judgeFrame, hab, ofCode_code]

/-- A request command is its frame clocked in, after the note of the wire it brings (log 2, log 7). -/
theorem request_clocked {c : Instr} {k : RequestKind} {tag : Byte} {body : List Byte} (hc : requestOf c = some (k, tag, body))
    (s : State) : exec c s = .next { s with dev := clockRequest k tag body (takeNote (noteOf c) s.dev) } := by
  cases c <;> simp only [requestOf, Option.some.injEq, Prod.mk.injEq, reduceCtorEq] at hc <;> obtain ⟨rfl, rfl, rfl⟩ := hc <;> rfl

theorem ownStart_port (seg : SegId) (p : BusPos) (d : Device) : (ownStart seg p d).port = d.port := by
  unfold ownStart
  split <;> rfl

theorem takeNote_port (n : Option WireNote) (d : Device) : (takeNote n d).port = d.port := by
  unfold takeNote
  split
  · rfl
  · split
    · exact ownStart_port ..
    · rfl

/-- An accepted request of an allowed length is answered by its owner (09 R164, case 4). -/
theorem request_answered {c : Instr} {k : RequestKind} {tag : Byte} {body : List Byte} {s : State} {o : Outbound}
    (hc : requestOf c = some (k, tag, body)) (hb : body.length ≤ 60) (ha : accepts s.dev body.length o = true)
    (hl : lengthAllowed k body = true) :
    exec c s =
      let a := owner k body (found o (takeNote (noteOf c) s.dev))
      replyTo s (k.code + 0x80#8) tag (a.1.status.code :: a.1.fields) a.2 := by
  simp only [accepts, listens, Bool.and_eq_true, beq_iff_eq, decide_eq_true_eq, Bool.not_eq_true'] at ha
  obtain ⟨⟨⟨⟨h1, h2⟩, h3⟩, h4⟩, h5⟩ := ha
  have hp := takeNote_port (noteOf c) s.dev
  generalize hd : takeNote (noteOf c) s.dev = d at hp ⊢
  rw [← hp] at h1 h2 h3 h4 h5
  rw [request_clocked hc, hd, clockRequest_taken h1 h2 k tag body hb h3]
  have hf : (atDone o d).repliesFull = false := decide_eq_false (by show ¬ 4 ≤ d.port.replies.length; omega)
  have hr : (countAccepted (atDone o d)).port.restartPending = false := h5
  simp only [takeRequest, hf, Bool.false_eq_true, if_false, answerRequest, hr, hl, if_true]
  rfl

/-- A small number comes back from its byte. -/
theorem byte_toNat {n : Nat} (h : n < 256) : (byte n).toNat = n := by
  simp only [byte, BitVec.toNat_ofNat]
  omega

/-- An index comes back from its byte. -/
theorem index_byte {n : Nat} (i : Fin n) (h : n ≤ 256) : index n (byte i.val) = some i := by
  have e : (byte i.val).toNat = i.val := byte_toNat (by omega)
  simp [index, e]

end Sys2Proof.Machine
end

