-- ==== Sys2Proof/WellFormed.lean ====
section
/-! DEFINITION. When a command is well formed: its operands are ones the spec gives the row. The machine is total without these checks:
a frame is judged by its bytes (09 R161, R162), and an event that cannot occur changes nothing (log 6). -/

namespace Sys2Proof

/-- A body the envelope can carry: at most 60 bytes (10 R177). -/
def bodyFits (body : List Byte) : Bool := body.length ≤ Config.maxBody

/-- The form byte of a WITHDRAW_TARGET body says FORCED (10 R181). -/
def isForcedForm (body : List Byte) : Bool := body.getD 1 0 == 1#8

/-- A byte index of 04 R64 lies in 0 to 34 (04 R82). -/
def byteIndexFits (i : Nat) : Bool := i ≤ 34

/-- A position on the wire: not WAIT_FREE, the byte index in range, and byte 0 only for the address (04 R64). -/
def BusPos.wf : BusPos → Bool
  | .waitFree => false
  | .start => true
  | .address => true
  | .data i => 1 ≤ i && byteIndexFits i
  | .checkByte i => 1 ≤ i && byteIndexFits i
  | .stop i acked => byteIndexFits i && (acked || i == 0)

/-- A note of the wire is about a position on the wire and at most 32 data bytes (05 R84). -/
def WireNote.wf (n : WireNote) : Bool := n.pos.wf && n.received.length ≤ 32

/-- A recovery issues at most 9 pulses (04 R77). -/
def RecoveryLines.wf (l : RecoveryLines) : Bool := l.pulses.length ≤ Config.maxPulses

/-- The operands of a command are ones its row can have. -/
def Instr.wf : Instr → Bool
  | .ping _ body => bodyFits body
  | .restart _ body => bodyFits body
  | .linkStatus _ body => bodyFits body
  | .setAttention _ body => bodyFits body
  | .setReportMask _ body => bodyFits body
  | .addTarget _ body => bodyFits body
  | .modifyTarget _ body => bodyFits body
  | .withdrawTargetNormal _ body => bodyFits body && !isForcedForm body
  | .withdrawTargetForced _ body => bodyFits body && isForcedForm body
  | .readTarget _ body => bodyFits body
  | .listTargets _ body => bodyFits body
  | .configureSegment _ body => bodyFits body
  | .segmentStatus wire _ body => bodyFits body && wire.all WireNote.wf
  | .holdSegment _ body => bodyFits body
  | .releaseSegment _ body => bodyFits body
  | .resetSegment wire _ body => bodyFits body && wire.all WireNote.wf
  | .flushSegment _ body => bodyFits body
  | .readFault _ body => bodyFits body
  | .openConversation _ body => bodyFits body
  | .appendSteps _ body => bodyFits body
  | .submitConversation _ body => bodyFits body
  | .runConversation _ body => bodyFits body
  | .cancelConversation _ body => bodyFits body
  | .conversationStatus _ body => bodyFits body
  | .fetchResult _ body => bodyFits body
  | .setFrame _ body => bodyFits body
  | .startSchedule _ body => bodyFits body
  | .stopSchedule _ body => bodyFits body
  | .putPoll _ body => bodyFits body
  | .clearPoll _ body => bodyFits body
  | .clearShadow _ body => bodyFits body
  | .copyActive _ body => bodyFits body
  | .commitBank _ body => bodyFits body
  | .readPoll _ body => bodyFits body
  | .fetchInbox _ body => bodyFits body
  | .inboxStatus _ body => bodyFits body
  | .rejectFrame _ _ len body _ _ => if len.toNat ≤ Config.maxBody then body.length == len.toNat else body.isEmpty
  | .strayByte _ b => b != 0#8 && b != 0x5A#8
  | .transferStart => true
  | .transferEnd _ => true
  | .frameDelivery _ => true
  | .restartFallbackExpiry => true
  | .rstnAssert => true
  | .rstnRelease => true
  | .powerOnReset => true
  | .assemblyExpiry _ => true
  | .deadlineExpiry _ => true
  | .conversationStart _ => true
  | .sweepStart _ => true
  | .transactionEnd _ nakAt received => nakAt.all byteIndexFits && received.length ≤ 34
  | .arbLost _ byteIndex => byteIndexFits byteIndex
  | .retryGapExpiry _ => true
  | .intervalExpiry _ => true
  | .pauseExpiry _ => true
  | .clockStall _ pos => pos.wf
  | .busFault _ site =>
    match site with
    | .lineWatch => true
    | .atStart => true
    | .atStop i acked => BusPos.wf (.stop i acked)
  | .receptionStall _ => true
  | .recoverySuccess _ lines => lines.wf
  | .recoveryFailure _ lines => lines.wf
  | .busStartSeen _ => true
  | .busStopSeen _ => true
  | .busFreeTimeExpiry _ => true
  | .busIdleTimeout _ => true
  | .addressByteJudged _ _ => true
  | .receivedDataByte _ _ => true
  | .alrFall _ => true
  | .alrRise _ => true
  | .sweepHoldoffExpiry _ => true
  | .frameBoundary => true
  | .inboundFrameBegins _ => true

end Sys2Proof
end

