-- ==== Sys2Proof/Tests/Slice0.lean ====
section
/-! SUPPORT. Tests: ill-formed commands, the two checks, small steps, and for every obligation with hypotheses states that meet them. -/

namespace Sys2Proof.Tests

open Sys2Proof.Machine

/-! ## Ill-formed commands (WellFormed) -/

theorem test_wf_body_at_most_60_bytes :
    (Instr.ping 0#8 (List.replicate 60 0#8)).wf = true ∧ (Instr.ping 0#8 (List.replicate 61 0#8)).wf = false := by decide

theorem test_wf_withdraw_forms :
    (Instr.withdrawTargetNormal 0#8 [1#8, 0#8]).wf = true ∧ (Instr.withdrawTargetNormal 0#8 [1#8, 1#8]).wf = false ∧
    (Instr.withdrawTargetForced 0#8 [1#8, 1#8]).wf = true ∧ (Instr.withdrawTargetForced 0#8 [1#8, 0#8]).wf = false := by decide

theorem test_wf_wire_note :
    (Instr.segmentStatus (some ⟨0, .data 34, []⟩) 0#8 [0#8]).wf = true ∧
    (Instr.segmentStatus (some ⟨0, .waitFree, []⟩) 0#8 [0#8]).wf = false ∧
    (Instr.segmentStatus (some ⟨0, .data 0, []⟩) 0#8 [0#8]).wf = false ∧
    (Instr.resetSegment (some ⟨0, .checkByte 35, []⟩) 0#8 [0#8]).wf = false ∧
    (Instr.resetSegment (some ⟨0, .start, List.replicate 33 0#8⟩) 0#8 [0#8]).wf = false := by decide

theorem test_wf_reject_frame_body_has_the_length_byte :
    (Instr.rejectFrame 1#8 0#8 2#8 [0#8, 0#8] 0#8 0#8).wf = true ∧ (Instr.rejectFrame 1#8 0#8 2#8 [0#8] 0#8 0#8).wf = false ∧
    (Instr.rejectFrame 1#8 0#8 61#8 [] 0#8 0#8).wf = true ∧ (Instr.rejectFrame 1#8 0#8 61#8 [0#8] 0#8 0#8).wf = false := by decide

theorem test_wf_stray_byte : (Instr.strayByte 3 0x01#8).wf = true ∧ (Instr.strayByte 3 0x00#8).wf = false ∧
    (Instr.strayByte 0 0x5A#8).wf = false := by decide

theorem test_wf_transaction_end : (Instr.transactionEnd 0 (some 34) []).wf = true ∧ (Instr.transactionEnd 0 (some 35) []).wf = false ∧
    (Instr.transactionEnd 0 none (List.replicate 35 0#8)).wf = false := by decide

theorem test_wf_arb_lost : (Instr.arbLost 0 34).wf = true ∧ (Instr.arbLost 0 35).wf = false := by decide

theorem test_wf_stall_and_fault_positions :
    (Instr.clockStall 0 .address).wf = true ∧ (Instr.clockStall 0 .waitFree).wf = false ∧
    (Instr.busFault 0 (.atStop 1 true)).wf = true ∧ (Instr.busFault 0 (.atStop 1 false)).wf = false := by decide

theorem test_wf_recovery_pulses :
    (Instr.recoverySuccess 0 ⟨false, List.replicate 9 .sdaLow, .linesHigh⟩).wf = true ∧
    (Instr.recoverySuccess 0 ⟨false, List.replicate 10 .sdaLow, .linesHigh⟩).wf = false ∧
    (Instr.recoveryFailure 0 ⟨false, List.replicate 10 .sdaLow, .linesHigh⟩).wf = false := by decide

/-! ## The two checks (10 R177, 04 R69) -/

/-- The check value the manual gives for the nine characters 1 to 9. -/
theorem test_crc16_of_the_manual :
    crc16 [0x31#8, 0x32#8, 0x33#8, 0x34#8, 0x35#8, 0x36#8, 0x37#8, 0x38#8, 0x39#8] = 0x29B1#16 := by decide +kernel

theorem test_crc8_of_two_bytes : crc8 [0x00#8] = 0x00#8 ∧ crc8 [0x01#8] = 0x07#8 ∧ crc8 [0x80#8] = 0x89#8 := by decide +kernel

/-! ## States -/

/-- After reset, in a transfer with nothing to send. -/
def link : Device := Device.reset.updPort fun p => { p with transfer := .active }

/-- The device as a state with no command waiting. -/
def at' (d : Device) : State := ⟨d, []⟩

/-- Four replies wait. -/
def full (d : Device) : Device := d.updPort fun p => { p with replies := List.replicate 4 ⟨0x81#8, 0#8, []⟩ }

/-- The outbound choice of the transfer. -/
def sending (o : Outbound) (d : Device) : Device := d.updPort fun p => { p with outbound := o }

/-- The parser's state. -/
def parsing (q : Parser) (d : Device) : Device := d.updPort fun p => { p with parser := q }

/-- An entry in a presence state, on segment 1 at address 0x20. -/
def entryAt (i : TargetId) (p : Presence) (misses : Nat) (d : Device) : Device :=
  d.updEntry i fun _ => ⟨p, 1, 0x20#7, .none, 0#16, 3, misses, 0⟩

/-- Every entry taken. -/
def everyEntry (d : Device) : Device := { d with directory := Vector.replicate 64 ⟨.present, 2, 0x21#7, .none, 0#16, 3, 0, 0⟩ }

/-- Every slot taken by the host. -/
def everySlot (d : Device) : Device := { d with pool := Vector.replicate 32 ⟨0#11, .done, .blank⟩ }

/-- A segment that is IDLE and enabled, changed further. -/
def segOn (f : Segment → Segment) (d : Device) : Device :=
  d.updSeg 0 fun g => f { g with state := .idle, owner := .taken, config := { g.config with enabled := true, ownAddress := 0x30#7 } }

/-- A host conversation to a raw target on segment 0. -/
def conv (steps : List Machine.Step) : Conv := ⟨.host, .raw 0 0x20#7 .none, .normal, some .notify, .default, none, steps, none, none, none, none⟩

/-- Slot 0 with a conversation. -/
def slot0 (st : SlotState) (c : Conv) (d : Device) : Device := d.updSlot 0 fun _ => ⟨0#11, st, c⟩

/-- The handle of slot 0. -/
def h0 : Handle := ⟨0, 0#11⟩

/-- A context in a phase. -/
def ctx (p : Phase) : Context := { Context.initial with phase := p }

/-- The conversation of slot 0 is RUNNING on segment 0. -/
def running (p : Phase) (c : Conv) (d : Device) : Device :=
  segOn (fun g => { g with state := .active, work := .conversation h0 (ctx p) }) (slot0 .running c d)

/-- A sweep runs on segment 0. -/
def sweeping (pos : BusPos) (d : Device) : Device :=
  segOn (fun g => { g with state := .active, work := .sweep pos, sweep := .running, alrLow := true }) d

/-- A poll entry of target 0. -/
def poll (outstanding : Option Handle) (policy : Policy) : PollEntry :=
  ⟨⟨0, 0x44#8, 2, 2, 1, [0xFF#8, 0xFF#8], policy, .normal⟩, some [1#8, 2#8], false, 0, false, outstanding⟩

/-- The next state of an answer, if it is one. -/
def next (a : Answer) : Option State :=
  match a with
  | .next t => some t
  | _ => none

/-! ## Small steps -/

theorem test_step_takes_the_front :
    step ⟨Device.reset, [.transferStart, .transferEnd []]⟩ = exec .transferStart ⟨Device.reset, [.transferEnd []]⟩ := rfl

theorem test_idle_queue_idles : step (at' link) = .next (at' link) := rfl

theorem test_the_queue_of_core_starts_empty : core.reset = State.reset ∧ State.reset.pending = [] := ⟨rfl, rfl⟩

/-- The first transfer after reset sends READY: kind 0xE0, tag 0, body kind 0x01, number 0, reason POWER. -/
theorem test_first_transfer_sends_ready :
    (startTransfer Device.reset).port.outbound = .chosen true ⟨0xE0#8, 0#8, [0x01#8, 0#8, 0#8, 0#8]⟩ 0 := by decide +kernel

theorem test_ready_is_delivered_by_its_ten_bytes :
    next (exec (.frameDelivery []) (at' (startTransfer Device.reset))) =
      some (at' (sending .delivered ((startTransfer Device.reset).updReports fun q => { q with list := [] }))) := by
  decide +kernel

theorem test_add_target_takes_entry_0 :
    next (exec (.addTarget 9#8 [1#8, 0x20#8, 0#8, 2#8, 1#8, 0#8]) (at' link)) =
      next (replyTo (at' link) 0x90#8 9#8 [0#8, 0#8]
        ((found .nothing link).updEntry 0 fun _ => ⟨.unconfirmed, 1, 0x20#7, .none, 0x0102#16, 3, 0, 0⟩)) := by
  decide +kernel

theorem test_add_target_addresses_07_and_78_are_refused :
    next (exec (.addTarget 9#8 [1#8, 0x07#8, 0#8, 2#8, 1#8, 0#8]) (at' link)) =
      next (replyTo (at' link) 0x90#8 9#8 [4#8] (found .nothing link)) ∧
    next (exec (.addTarget 9#8 [1#8, 0x78#8, 0#8, 2#8, 1#8, 0#8]) (at' link)) =
      next (replyTo (at' link) 0x90#8 9#8 [4#8] (found .nothing link)) := by
  decide +kernel

/-- A QUICK to the raw target runs: the answer ends the conversation OK and COMPLETED stands in the report list. -/
theorem test_quick_runs_to_completed :
    (next (exec (.transactionEnd 0 none []) (at' (running (.transaction false false .address) (conv [.quick true false]) link)))).map
        (fun t => ((t.dev.slot 0).state, (t.dev.seg 0).state, t.dev.reports.list.length, (t.dev.slot 0).conv.result)) =
      some (.done, .idle, 2, some ⟨.ok, 1, none, [], none⟩) := by
  decide +kernel

theorem test_nak_of_the_address_waits_for_a_retry :
    (next (exec (.transactionEnd 0 (some 0) [])
        (at' (running (.transaction false false .address) (conv [.quick true false]) link)))).map (fun t => (t.dev.seg 0).work) =
      some (.conversation h0 { ctx (.retryGap 5) with retryCount := 1 }) := by
  decide +kernel

/-! ## Witnesses: states that meet the hypotheses of the statements -/

/-- A request of any length is accepted in `link`, and in a transfer that sends a frame longer than the request. -/
theorem test_witness_accepts : (∀ n, accepts link n .nothing = true) ∧
    accepts (sending (.chosen false ⟨0x81#8, 0#8, [0#8]⟩ 0) link) 0 (.chosen false ⟨0x81#8, 0#8, [0#8]⟩ 6) = true ∧
    accepts (sending .delivered link) 60 .delivered = true := by
  refine ⟨fun n => ?_, by decide +kernel, by decide +kernel⟩
  rfl

theorem test_witness_RequestIsHandledInOrder :
    requestOf (.ping 1#8 []) = some (.ping, 1#8, []) ∧ listens link (6 + 0) .nothing = true ∧
    requestOf (.ping 1#8 (List.replicate 60 0#8)) = some (.ping, 1#8, List.replicate 60 0#8) ∧ listens link (6 + 60) .nothing = true ∧
    (listens (full link) 6 .nothing = true ∧ 4 ≤ (full link).port.replies.length) ∧
    (listens (link.updPort fun p => { p with restartPending := true }) 6 .nothing = true) ∧
    (link.port.replies.length < 4 ∧ link.port.restartPending = false ∧ lengthAllowed .ping (List.replicate 60 0#8) = false ∧
      lengthAllowed .ping [] = true) := by
  decide +kernel

theorem test_witness_RestartIsFlaggedAndCarriedOut :
    accepts link 0 .nothing = true ∧ (link.updPort fun p => { p with fallback := some 250 }).port.fallback = some 250 ∧
    link.port.fallback = none ∧
    (let d := sending (.chosen false ⟨0x82#8, 1#8, [0x00#8]⟩ 0) link
     d.port.transfer = .active ∧ d.port.parser = .hunt) ∧
    (let d := sending (.chosen false ⟨0x82#8, 1#8, [0x00#8]⟩ 6) link
     d.port.transfer = .active ∧ d.port.parser = .hunt ∧ 6 < 7) := by
  decide +kernel

theorem test_witness_PingAndLinkStatusAnswer : accepts link 0 .nothing = true ∧ accepts link 1 .nothing = true ∧ (0xFF#8 : Byte) ≠ 0#8 := by
  decide +kernel

theorem test_witness_AttentionModeIsSetAndDrivesAttn : accepts link 1 .nothing = true ∧ 3 ≤ (3#8 : Byte).toNat ∧ 3 ≤ (255#8 : Byte).toNat := by
  decide +kernel

theorem test_witness_FailedFrameIsRejected :
    (60 < (61#8 : Byte).toNat ∧ listens link 4 .nothing = true ∧ listens (full link) 4 .nothing = true) ∧
    (listens link (6 + (List.replicate 60 0#8 : List Byte).length) .nothing = true ∧ (List.replicate 60 0#8 : List Byte).length ≤ 60) ∧
    le16 (crc16 [0x01#8, 7#8, 0#8]) ≠ [0#8, 0#8] ∧
    le16 (crc16 [0x01#8, 7#8, 0#8]) = [59#8, 98#8] ∧ RequestKind.ping.code = 0x01#8 ∧
    le16 (crc16 [0x7E#8, 7#8, 0#8]) = [2#8, 150#8] ∧ (∀ k ∈ RequestKind.all, k.code ≠ 0x7E#8) := by
  decide +kernel

/-- The list of request kinds is complete, so a kind byte that none of it has is no request's. -/
theorem test_every_request_kind_is_listed (k : RequestKind) : k ∈ RequestKind.all := by cases k <;> decide

theorem test_witness_ParserTakesEachByteByItsState :
    (link.port.transfer = .active ∧ link.port.outbound.after 1 = some .nothing ∧ link.port.parser = .hunt) ∧
    (∀ q ∈ [Parser.kind, .tag 1#8, .length 1#8 2#8, .body 1#8 2#8 2#8 [], .body 1#8 2#8 1#8 [],
        .body 1#8 2#8 60#8 (List.replicate 59 0#8), .body 1#8 2#8 60#8 (List.replicate 58 0#8), .check 1#8 2#8 0#8 [] none,
        .check 1#8 2#8 0#8 [] (some 1#8), .done],
      (parsing q link).port.transfer = .active ∧ (parsing q link).port.parser = q ∧
        (parsing q link).port.outbound.after 1 = some .nothing) ∧
    (1 ≤ (1#8 : Byte).toNat ∧ (60#8 : Byte).toNat ≤ 60 ∧ 61 ≤ (61#8 : Byte).toNat) ∧
    ((List.replicate 58 0#8 : List Byte).length + 1 < (60#8 : Byte).toNat ∧
      (List.replicate 59 0#8 : List Byte).length + 1 = (60#8 : Byte).toNat) ∧
    (listens link 1 .nothing = true ∧ listens link 6 .nothing = true ∧ (1#8 : Byte) ≠ 0x00#8 ∧ (1#8 : Byte) ≠ 0x5A#8) ∧
    (Device.reset.port.transfer ≠ .active ∧ requestOf (.segmentStatus none 1#8 [0#8]) = some (.segmentStatus, 1#8, [0#8]) ∧
      noteOf (.segmentStatus none 1#8 [0#8]) = none) := by
  decide +kernel

theorem test_witness_TransferStartFixesTheOutboundFrame :
    (let d := { Device.reset with rstnLow := true }
     d.port.transfer = .idle ∧ d.rstnLow = true) ∧
    (let d := full Device.reset
     d.port.transfer = .idle ∧ d.rstnLow = false ∧ d.port.replies = ⟨0x81#8, 0#8, []⟩ :: List.replicate 3 ⟨0x81#8, 0#8, []⟩) ∧
    (Device.reset.port.transfer = .idle ∧ Device.reset.rstnLow = false ∧ Device.reset.port.replies = [] ∧
      Device.reset.reports.list = [⟨0#16, .ready .power⟩]) ∧
    (let d := Device.reset.updReports fun q => { q with list := [⟨5#16, .reportsLost 3⟩] }
     d.port.transfer = .idle ∧ d.rstnLow = false ∧ d.port.replies = [] ∧ d.reports.list = [⟨5#16, .reportsLost 3⟩]) ∧
    (let d := Device.reset.updReports fun q => { q with list := [] }
     d.port.transfer = .idle ∧ d.rstnLow = false ∧ d.port.replies = [] ∧ d.reports.list = []) := by
  decide +kernel

theorem test_witness_TransferEndCountsWhatWasCut :
    (link.updPort fun p => { p with transfer := .ignored }).port.transfer = .ignored ∧
    (link.port.transfer = .active ∧ link.port.parser = .hunt ∧ link.port.outbound = .nothing) ∧
    (let d := sending (.chosen false ⟨0x81#8, 0#8, []⟩ 2) (parsing .done link)
     d.port.transfer = .active ∧ d.port.parser = .done ∧ d.port.outbound = .chosen false ⟨0x81#8, 0#8, []⟩ 2) ∧
    (let d := parsing .kind link
     d.port.transfer = .active ∧ d.port.parser = .kind ∧ d.port.outbound = .nothing) ∧
    (let d := sending (.chosen true ⟨0xE0#8, 0#8, []⟩ 2) (parsing .kind link)
     d.port.transfer = .active ∧ d.port.parser = .kind ∧ d.port.outbound = .chosen true ⟨0xE0#8, 0#8, []⟩ 2) := by
  decide +kernel

theorem test_witness_DeliveryTakesTheHeadAndSettlesTheMarker :
    (let f : Frame := ⟨0x81#8, 0#8, [0x00#8]⟩
     let d := sending (.chosen false f 6) link
     d.port.transfer = .active ∧ d.port.parser = .hunt ∧ 6 + 1 = f.length ∧ 6 < f.length ∧ 0 < f.length ∧ f.kind ≠ 0x82#8) ∧
    (let f : Frame := ⟨0x82#8, 0#8, [0x00#8]⟩
     6 + 1 = f.length ∧ f.kind = 0x82#8 ∧ f.body = [0x00#8]) ∧
    (let d := sending (.chosen true (Report.frame ⟨0#16, .ready .power⟩) 9) link
     d.reports.list = [⟨0#16, .ready .power⟩] ∧ (ReportBody.ready .power).lostCount = none ∧
       9 < (Report.frame ⟨0#16, .ready .power⟩).length) ∧
    (let q : ReportQueue := { link.reports with list := [⟨5#16, .reportsLost 3⟩], mark := some 3 }
     q.list = [⟨5#16, .reportsLost 3⟩] ∧ q.mark = some 3) ∧
    (let q : ReportQueue := { link.reports with list := [⟨5#16, .reportsLost 3⟩], mark := some 2 }
     q.list = [⟨5#16, .reportsLost 3⟩] ∧ q.mark = some 2 ∧ 2 < 3) := by
  decide +kernel

theorem test_witness_PinAndPowerResetTheDevice :
    link.rstnLow = false ∧ ({ link with rstnLow := true } : Device).rstnLow = true := by decide +kernel

theorem test_witness_PostingRuleHasFourCases :
    (ReportBody.maskedBy (.alertStuck 0) 0x4000#32 = true) ∧
    (let q : ReportQueue := ⟨[⟨0#16, .reportsLost 65535⟩], 1#16, 0#32, none⟩
     ReportBody.maskedBy (.alertStuck 0) q.mask = false ∧ q.marker ≠ none) ∧
    (let q : ReportQueue := ⟨List.replicate 30 ⟨0#16, .alertStuck 0⟩, 1#16, 0#32, none⟩
     ReportBody.maskedBy (.alertStuck 0) q.mask = false ∧ q.marker = none ∧ q.list.length < 31) ∧
    (let q : ReportQueue := ⟨List.replicate 31 ⟨0#16, .alertStuck 0⟩, 1#16, 0#32, none⟩
     ReportBody.maskedBy (.ready .pin) q.mask = false ∧ q.marker = none ∧ q.list.length = 31) := by
  decide +kernel

theorem test_witness_ReportMaskIsReplacedOrRefused :
    accepts link 4 .nothing = true ∧ (0x0000FFFE#32 : Word) &&& 0xFFFF0001#32 = 0#32 ∧ (0x00000001#32 : Word) &&& 0xFFFF0001#32 ≠ 0#32 ∧
    (0x00010000#32 : Word) &&& 0xFFFF0001#32 ≠ 0#32 := by
  decide +kernel

/-- Nothing waits in a list, nothing is QUEUED, and at most the conversation `h0` runs, on segment 0 with a context: what is left of the work
law is decidable. -/
theorem workLaw_of_no_queue (d : Device) (c : Context)
    (counts : ∀ i, (d.entry i).refs = references d i ∧ ((d.entry i).presence = .vacant → (d.entry i).refs = 0) ∧
      ((d.entry i).presence = .withdrawing → (d.entry i).refs ≠ 0))
    (lists : ∀ seg, (d.seg seg).urgent = [] ∧ (d.seg seg).normal = [] ∧ (d.seg seg).streak ≤ 4 ∧ (d.seg seg).sweep ≠ .pending ∧
      ((d.seg seg).state = .active ↔ (d.seg seg).work ≠ .nothing) ∧
      ((d.seg seg).work = .nothing ∨ ((d.seg seg).work = .conversation h0 c ∧ h0 = d.handle h0.slot ∧ (d.slot h0.slot).state = .running ∧
        targetSegment d (d.slot h0.slot).conv.target = seg)))
    (slots : ∀ k, (d.slot k).state ≠ .queued ∧
      ((d.slot k).state = .running → (d.seg (targetSegment d (d.slot k).conv.target)).work = .conversation (d.handle k) c) ∧
      ((d.slot k).conv.assemblyTimer.isSome → (d.slot k).state = .assembling) ∧
      ((d.slot k).conv.stop.isSome → (d.slot k).state = .running))
    (held : hostHeld d ≤ 24) : WorkLaw d where
  counted i := (counts i).1
  vacant i := (counts i).2.1
  withdrawing i := (counts i).2.2
  queued seg cls h := by
    have e : (d.seg seg).waiting cls = [] := by cases cls <;> simp [Segment.waiting, lists seg]
    simp [e, (slots h.slot).1]
  running k r := ⟨c, (slots k).2.1 r⟩
  engaged seg h ctx w := by
    rcases (lists seg).2.2.2.2.2 with e | ⟨e, l⟩
    · rw [w] at e; cases e
    · rw [w] at e; injection e with e _; subst e; exact l
  active seg := (lists seg).2.2.2.2.1
  served seg _ := by simp [Segment.offers, lists seg]
  hostHeld := held
  streak seg := (lists seg).2.2.1
  idleTimer k := (slots k).2.2.1
  stops k := (slots k).2.2.2
  steps k q := absurd q (slots k).1

theorem test_witness_EveryStepKeepsTheWorkLaw : WorkLaw link ∧ ∃ t, step ⟨link, [.frameBoundary]⟩ = .next t :=
  ⟨workLaw_of_no_queue _ .initial (by decide +kernel) (by decide +kernel) (by decide +kernel) (by decide +kernel), _, rfl⟩

/-- Each of the five other laws holds in `link` (its report list emptied), and a step from there answers a next state. -/
theorem test_witness_the_laws :
    ReportLaw ReportQueue.empty ∧ ReplyLaw link ∧ InboxLaw link ∧ DirectoryLaw link ∧ ScheduleLaw link.schedule ∧
    ∃ t, step ⟨{ link with reports := .empty }, [.powerOnReset]⟩ = .next t := by
  refine ⟨⟨by decide, by decide, by decide, by decide, trivial⟩, Nat.zero_le 4, ⟨by decide +kernel, by decide +kernel, .nil,
    by decide +kernel, by decide +kernel, by decide +kernel, fun seg kind bytes truncated h => ?_⟩,
    ⟨by decide +kernel, by decide +kernel⟩, ⟨by decide, by decide, by decide⟩, _, rfl⟩
  have e : ∀ seg, (link.seg seg).reception = .nothing := by decide +kernel
  rw [e] at h
  cases h

theorem test_witness_AddTargetFillsTheLowestVacantEntry :
    accepts link 6 .nothing = true ∧
    (4 ≤ (4#8 : Byte).toNat ∧ (0x07#8 : Byte).toNat < 0x08 ∧ 0x77 < (0x78#8 : Byte).toNat ∧ 2 ≤ (2#8 : Byte).toNat ∧ 16 ≤ (16#8 : Byte).toNat) ∧
    (0x08 ≤ (0x08#8 : Byte).toNat ∧ (0x77#8 : Byte).toNat ≤ 0x77 ∧ (15#8 : Byte).toNat ≤ 15) ∧
    (let d := segOn id link
     accepts d 6 .nothing = true ∧ (d.seg 0).config.ownAddress = (0x30#8 : Byte).setWidth 7) ∧
    (let d := entryAt 3 .present 0 link
     accepts d 6 .nothing = true ∧ (d.seg 1).config.ownAddress ≠ (0x20#8 : Byte).setWidth 7 ∧
       (d.entry 3).presence ≠ .vacant ∧ (d.entry 3).segment = 1 ∧ (d.entry 3).address = (0x20#8 : Byte).setWidth 7) ∧
    (let d := everyEntry link
     accepts d 6 .nothing = true ∧ (∀ i, (d.entry i).presence ≠ .vacant) ∧
       ¬ ∃ i, (d.entry i).presence ≠ .vacant ∧ (d.entry i).segment = 1 ∧ (d.entry i).address = (0x20#8 : Byte).setWidth 7) ∧
    (let d := entryAt 0 .present 0 link
     accepts d 6 .nothing = true ∧ (d.entry 1).presence = .vacant ∧ (∀ j : TargetId, j < 1 → (d.entry j).presence ≠ .vacant) ∧
       ¬ ∃ i, (d.entry i).presence ≠ .vacant ∧ (d.entry i).segment = 0 ∧ (d.entry i).address = (0x20#8 : Byte).setWidth 7) := by
  decide +kernel

theorem test_witness_ModifyTargetReplacesTheSettings :
    accepts link 5 .nothing = true ∧ (link.entry 0).presence = .vacant ∧
    (accepts (entryAt 0 .withdrawing 0 link) 5 .nothing = true ∧ ((entryAt 0 .withdrawing 0 link).entry 0).presence = .withdrawing) ∧
    (accepts (entryAt 0 .missing 3 link) 5 .nothing = true ∧ ((entryAt 0 .missing 3 link).entry 0).presence = .missing) ∧
    (accepts (entryAt 63 .present 0 link) 5 .nothing = true ∧ ((entryAt 63 .present 0 link).entry 63).presence = .present) ∧
    15 < (16#8 : Byte).toNat ∧ (15#8 : Byte).toNat ≤ 15 ∧ 2 ≤ (2#8 : Byte).toNat := by
  decide +kernel

/-- An entry with one reference, in no poll entry. -/
def referenced (d : Device) : Device := raiseRef 0 (entryAt 0 .present 0 d)

theorem test_witness_NormalWithdrawalNeedsNoReference :
    accepts link 2 .nothing = true ∧ (link.entry 0).presence = .vacant ∧
    (accepts (entryAt 0 .withdrawing 0 link) 2 .nothing = true ∧ ((entryAt 0 .withdrawing 0 link).entry 0).presence = .withdrawing) ∧
    (accepts (entryAt 0 .present 0 link) 2 .nothing = true ∧ ((entryAt 0 .present 0 link).entry 0).presence = .present ∧
      ((entryAt 0 .present 0 link).entry 0).refs = 0) ∧
    (accepts (referenced link) 2 .nothing = true ∧ ((referenced link).entry 0).presence = .present ∧ ((referenced link).entry 0).refs = 1) := by
  decide +kernel

/-- A conversation to directory target 0, which stands on segment 0, in a state. -/
def onTarget (st : SlotState) (d : Device) : Device :=
  slot0 st { conv [.pause 1] with target := .directory 0 } (d.updEntry 0 fun _ => ⟨.present, 0, 0x20#7, .none, 0#16, 3, 0, 1⟩)

/-- That conversation RUNNING, in a phase. -/
def runningOnTarget (p : Phase) (d : Device) : Device :=
  segOn (fun g => { g with state := .active, work := .conversation h0 (ctx p) }) (onTarget .running d)

/-- The work law holds where the target is unreferenced, where a conversation on it is ASSEMBLING, and where one is RUNNING, whether or not
its engine waits. -/
theorem test_witness_ForcedWithdrawal_under_the_work_law :
    (WorkLaw (entryAt 0 .present 0 link) ∧ ((entryAt 0 .present 0 link).entry 0).refs = 0) ∧
    (let d := onTarget .assembling link
     WorkLaw d ∧ (d.slot 0).state = .assembling ∧ (d.slot 0).conv.target = .directory 0 ∧ (∀ k, (d.slot k).state ≠ .running)) ∧
    (let d := runningOnTarget (.transaction false false .address) link
     WorkLaw d ∧ (d.slot 0).state = .running ∧ ¬ ∃ c, Claims.waiting d 0 c) ∧
    (let d := runningOnTarget (.pause 1) link
     WorkLaw d ∧ (d.slot 0).state = .running ∧ Claims.waiting d 0 (ctx (.pause 1))) := by
  refine ⟨⟨workLaw_of_no_queue _ .initial ?_ ?_ ?_ ?_, ?_⟩, ⟨workLaw_of_no_queue _ .initial ?_ ?_ ?_ ?_, ?_⟩,
    ⟨workLaw_of_no_queue _ (ctx (.transaction false false .address)) ?_ ?_ ?_ ?_, ?_, ?_⟩,
    ⟨workLaw_of_no_queue _ (ctx (.pause 1)) ?_ ?_ ?_ ?_, ?_, ⟨h0, ?_, rfl, rfl⟩⟩⟩
  case refine_16 =>
    rintro ⟨c, h, hw, -, hc⟩
    have e : (Work.conversation h0 (ctx (.transaction false false .address))) = .conversation h c := by rw [← hw]; decide +kernel
    injection e with _ e
    subst e
    exact absurd hc (by decide)
  all_goals decide +kernel

theorem test_witness_ForcedWithdrawalClearsTheWaitingWork :
    (let d := (referenced link).setPoll .a 0 (some (poll none .every))
     accepts d 2 .nothing = true ∧ (d.entry 0).presence = .present ∧ (d.poll d.schedule.active 0).any (fun e => e.config.target = 0) = true) ∧
    (let d := ((referenced link).setPoll .b 0 (some (poll none .every))).updSchedule fun s => { s with running := true, timer := some 10, swapPending := true }
     accepts d 2 .nothing = true ∧ (d.entry 0).presence = .present ∧ d.schedule.swapPending = true ∧
       (∀ k, d.poll d.schedule.active k = none) ∧ (d.poll d.schedule.active.other 0).any (fun e => e.config.target = 0) = true) ∧
    (let d := slot0 .queued { conv [.quick true false] with target := .directory 0 } (referenced link)
     accepts d 2 .nothing = true ∧ (d.entry 0).presence = .present ∧ (∀ k, d.poll d.schedule.active k = none) ∧ d.schedule.swapPending = false) := by
  decide +kernel

theorem test_witness_DirectoryIsReadBack :
    accepts link 1 .nothing = true ∧ (link.entry 63).presence = .vacant ∧
    (accepts (entryAt 63 .suspect 1 link) 1 .nothing = true ∧ ((entryAt 63 .suspect 1 link).entry 63).presence ≠ .vacant) ∧
    64 ≤ (64#8 : Byte).toNat ∧ accepts (everyEntry link) 1 .nothing = true := by
  decide +kernel

theorem test_witness_AddressEventsMoveThePresence :
    (∀ p : Presence, ((entryAt 0 p 0 link).entry 0).presence = p ∧ min (((entryAt 0 p 0 link).entry 0).misses + 1) 3 ≠ 3) ∧
    (∀ p : Presence, ((entryAt 0 p 2 link).entry 0).presence = p ∧ min (((entryAt 0 p 2 link).entry 0).misses + 1) 3 = 3) := by
  constructor <;> intro p <;> cases p <;> decide +kernel

theorem test_witness_HandleIsCheckedBeforeAnythingElse :
    (requestOf (.cancelConversation 1#8 [32#8, 0#8, 0#8]) = some (.cancelConversation, 1#8, [32#8, 0#8, 0#8]) ∧
      lengthAllowed .cancelConversation [32#8, 0#8, 0#8] = true ∧ accepts link (3 + 0) .nothing = true ∧ 32 ≤ (32#8 : Byte).toNat) ∧
    (requestOf (.fetchResult 1#8 [0#8, 0#8, 8#8, 0#8, 0#8]) = some (.fetchResult, 1#8, [0#8, 0#8, 8#8, 0#8, 0#8]) ∧
      lengthAllowed .fetchResult [0#8, 0#8, 8#8, 0#8, 0#8] = true ∧ accepts link (3 + 2) .nothing = true ∧
      2048 ≤ ((8#8 : Byte) ++ (0#8 : Byte)).toNat) ∧
    (lengthAllowed .appendSteps [31#8, 0xFF#8, 7#8] = true ∧ 31#8 = byte (31 : SlotId).val ∧ ((7#8 : Byte) ++ (0xFF#8 : Byte)).toNat < 2048 ∧
      (link.slot 31).state = .free) ∧
    (let d := everySlot link
     accepts d 3 .nothing = true ∧ lengthAllowed .submitConversation [0#8, 1#8, 0#8] = true ∧ (d.slot 0).state ≠ .free ∧
       (d.slot 0).gen.toNat ≠ ((0#8 : Byte) ++ (1#8 : Byte)).toNat) := by
  decide +kernel

/-- One step of each kind, each field at an end of its range. -/
def steps : List Machine.Step :=
  [.quick true true, .write (some 1#8) [] true true, .write none (List.replicate 32 0xFF#8) false false, .read (some 2#8) 32 true,
   .read none 1 false, .readBlock 3#8 false, .waitUntil 4#8 4 [0#8, 0#8, 0#8, 0#8] [1#8, 2#8, 3#8, 4#8] 255 1, .pause 255]

theorem test_step_records_are_read_back : (∀ x ∈ steps, x.inRange = true) ∧ stepsOf (steps.flatMap Step.bytes) = some steps ∧
    stepsOf [0x07#8, 0#8, 0#8] = none ∧ stepsOf [0x01#8, 16#8, 0#8] = none ∧ stepsOf [0x06#8, 0#8, 1#8, 0#8] = none := by
  decide +kernel

theorem test_witness_FieldsOutOfRangeAreRefused :
    (∀ c ∈ [Instr.modifyTarget 1#8 [64#8, 0#8, 0#8, 0#8, 0#8], .withdrawTargetNormal 1#8 [0#8, 2#8], .withdrawTargetForced 1#8 [64#8, 1#8],
        .configureSegment 1#8 [4#8, 0#8, 0#8, 1#8, 0#8, 0#8, 0#8, 1#8], .configureSegment 1#8 [0#8, 0#8, 2#8, 1#8, 0#8, 0#8, 0#8, 1#8],
        .segmentStatus none 1#8 [4#8], .holdSegment 1#8 [255#8], .releaseSegment 1#8 [4#8], .resetSegment none 1#8 [4#8],
        .flushSegment 1#8 [4#8], .readFault 1#8 [4#8, 0#8], .openConversation 1#8 [2#8, 0#8, 0#8, 0#8, 0#8, 0#8, 0#8, 0#8, 0#8],
        .openConversation 1#8 [1#8, 128#8, 0#8, 0#8, 0#8, 0#8, 0#8, 0#8, 0#8], .runConversation 1#8 [0#8, 64#8, 0#8, 0#8, 0#8, 0#8, 0#8, 0#8, 0#8],
        .runConversation 1#8 [0#8, 0#8, 0#8, 0#8, 0#8, 0#8, 0#8, 0#8, 1#8, 8#8, 1#8, 0#8], .clearPoll 1#8 [48#8], .readPoll 1#8 [2#8, 0#8],
        .readPoll 1#8 [0#8, 48#8], .putPoll 1#8 [0#8, 0#8, 0#8, 1#8, 1#8, 0#8, 0#8, 0#8, 3#8, 0#8, 0#8, 0#8, 0#8, 0#8]],
      (requestOf c).any (fun r => accepts link r.2.2.length .nothing && lengthAllowed r.1 r.2.2) = true) ∧
    Claims.outOfRange .withdrawTarget [0#8, 2#8] ∧ Claims.outOfRange .holdSegment [4#8] ∧
    Claims.outOfRange .openConversation [1#8, 128#8, 0#8, 0#8, 0#8, 0#8, 0#8, 0#8, 0#8] ∧ Claims.outOfRange .readPoll [2#8, 0#8] ∧
    (let d := slot0 .assembling (conv []) link
     lengthAllowed .appendSteps (h0.bytes ++ [0x07#8, 0#8, 0#8]) = true ∧ accepts d 6 .nothing = true ∧ (d.slot 0).gen = h0.gen ∧
       (d.slot 0).state = .assembling) := by
  refine ⟨by decide +kernel, by unfold Claims.outOfRange; decide, by unfold Claims.outOfRange; decide,
    by unfold Claims.outOfRange; decide, by unfold Claims.outOfRange; decide, by decide +kernel⟩

/-- A pool with the host's 24 slots taken and a FREE slot left. -/
def hostFull (d : Device) : Device := { d with pool := mapTable (fun i x => if i.val < 24 then ⟨0#11, .done, .blank⟩ else x) d.pool }

theorem test_witness_OpenTakesTheLowestFreeSlot :
    (∀ p : Byte × RetrySettings, some (1#8, (⟨7, 255, 15⟩ : RetrySettings)) = some p → p.1 ≠ 0#8 ∧ p.2.inRange = true) ∧
    (headerBytes 0#8 0#8 (.directory 0) .urgent .fire 0xFFFF#16 (some (1#8, ⟨7, 255, 15⟩))).length = 12 ∧ accepts link 12 .nothing = true ∧
    (headerBytes 0#8 0#8 (.raw 0 0x7F#7 .pec) .normal .notify 0#16 none).length = 9 ∧ accepts link 9 .nothing = true ∧
    (accepts (hostFull link) 9 .nothing = true ∧ 24 ≤ hostHeld (hostFull link)) ∧
    (accepts (everySlot link) 9 .nothing = true ∧ ∀ i, ((everySlot link).slot i).state ≠ .free) ∧
    (hostHeld link < 24 ∧ (link.slot 0).state = .free ∧ (∀ j : SlotId, j < 0 → (link.slot j).state ≠ .free) ∧ (link.entry 0).presence = .vacant) ∧
    (let d := entryAt 0 .withdrawing 0 link
     accepts d 9 .nothing = true ∧ hostHeld d < 24 ∧ (d.entry 0).presence = .withdrawing) ∧
    (let d := slot0 .done (conv []) (entryAt 0 .present 0 link)
     accepts d 9 .nothing = true ∧ hostHeld d < 24 ∧ (d.slot 1).state = .free ∧ (∀ j : SlotId, j < 1 → (d.slot j).state ≠ .free) ∧
       (d.entry 0).presence = .present) := by
  refine ⟨fun p h => ?_, by decide +kernel⟩
  injection h with h
  subst h
  decide

theorem test_witness_AppendAddsAllStepsOrNone :
    (let d := slot0 .assembling (conv []) link
     accepts d 6 .nothing = true ∧ (h0.bytes ++ [Machine.Step.quick true false].flatMap Step.bytes).length = 6 ∧ (d.slot 0).gen = h0.gen ∧
       (d.slot 0).state = .assembling ∧ withinLimits [.quick true false] = true ∧ joinsAllowed [.quick true false] = true) ∧
    (let d := slot0 .assembling (conv [.quick true true]) link
     accepts d 7 .nothing = true ∧ (d.slot 0).state = .assembling ∧ (Machine.Step.quick true true).joined = true ∧
       (Machine.Step.pause 1).mayFollowJoin = false) ∧
    (let d := slot0 .assembling (conv (List.replicate 8 (.quick true false))) link
     accepts d 6 .nothing = true ∧ withinLimits (List.replicate 8 (.quick true false) ++ [.quick true false]) = false ∧
       withinLimits (List.replicate 8 (.quick true false)) = true) ∧
    (let d := slot0 .queued (conv [.quick true false]) link
     accepts d 6 .nothing = true ∧ (d.slot 0).gen = h0.gen ∧ (d.slot 0).state ≠ .assembling ∧ (d.slot 0).state ≠ .free) := by
  decide +kernel

theorem test_witness_joins_are_followed_and_not : joinsFollowed [.quick true true, .quick true false] ∧
    ¬ joinsFollowed [.quick true true, .pause 1] := by
  constructor
  · intro k a b ha hb _
    match k with
    | 0 =>
      simp only [List.getElem?_cons_zero, Option.some.injEq, Nat.zero_add, List.getElem?_cons_succ] at ha hb
      subst hb
      rfl
    | k + 1 => simp at hb
  · intro h
    exact absurd (h 0 _ _ rfl rfl rfl) (by decide)

theorem test_witness_SubmitQueuesUnderTheClass :
    (let d := segOn id (slot0 .assembling (conv [.quick true false]) link)
     accepts d 3 .nothing = true ∧ (d.slot h0.slot).gen = h0.gen ∧ (d.slot h0.slot).state = .assembling ∧
       (d.slot h0.slot).conv.steps = [] ++ [.quick true false] ∧ (Machine.Step.quick true false).joined = false ∧
       (d.seg (targetSegment d (d.slot h0.slot).conv.target)).state ≠ .off) ∧
    (let d := slot0 .assembling (conv [.quick true false]) link
     accepts d 3 .nothing = true ∧ (d.seg (targetSegment d (d.slot h0.slot).conv.target)).state = .off) ∧
    (let d := slot0 .assembling (conv [.quick true true]) link
     accepts d 3 .nothing = true ∧ (d.slot h0.slot).conv.steps = [] ++ [.quick true true] ∧ (Machine.Step.quick true true).joined = true) ∧
    (let d := slot0 .assembling (conv []) link
     accepts d 3 .nothing = true ∧ (d.slot h0.slot).conv.steps = []) ∧
    (let d := slot0 .done (conv []) link
     accepts d 3 .nothing = true ∧ (d.slot h0.slot).state ≠ .assembling ∧ (d.slot h0.slot).state ≠ .free) := by
  decide +kernel

theorem test_witness_RunOpensFillsAndQueues :
    (let body := headerBytes 0#8 0#8 (.raw 0 0x20#7 .none) .normal .notify 0#16 none ++ [Machine.Step.quick true false].flatMap Step.bytes
     body.length = 12 ∧ body.length ≤ 60 ∧ (Machine.Step.quick true false).inRange = true ∧ withinLimits [.quick true false] = true ∧
       joinsAllowed [.quick true false] = true) ∧
    (let d := segOn id link
     accepts d 12 .nothing = true ∧ hostHeld d < 24 ∧ (d.slot 0).state = .free ∧ (∀ j : SlotId, j < 0 → (d.slot j).state ≠ .free) ∧
       (d.seg (targetSegment d (.raw 0 0x20#7 .none))).state ≠ .off) ∧
    (accepts link 12 .nothing = true ∧ (link.seg (targetSegment link (.raw 0 0x20#7 .none))).state = .off ∧ (link.entry 0).presence = .vacant) ∧
    (accepts (hostFull link) 12 .nothing = true ∧ 24 ≤ hostHeld (hostFull link)) ∧
    (accepts (entryAt 0 .withdrawing 0 link) 12 .nothing = true ∧ ((entryAt 0 .withdrawing 0 link).entry 0).presence = .withdrawing) ∧
    withinLimits (List.replicate 9 (.quick true false)) = false ∧
    (headerBytes 0#8 0#8 (.raw 0 0x20#7 .none) .normal .notify 0#16 none ++
      (List.replicate 9 (Machine.Step.quick true false)).flatMap Step.bytes).length = 36 := by
  decide +kernel

/-- What waits, waits. -/
theorem test_witness_waiting : Claims.waiting (running (.pause 1) (conv [.pause 1]) link) 0 (ctx (.pause 1)) ∧
    ¬ (∃ c, Claims.waiting (running (.transaction false false (.data 1)) (conv [.quick true false]) link) 0 c) := by
  refine ⟨⟨h0, by decide +kernel, rfl, rfl⟩, ?_⟩
  rintro ⟨c, h, hw, -, hc⟩
  have e : (Work.conversation h0 (ctx (.transaction false false (.data 1)))) = .conversation h c := by
    rw [← hw]
    decide +kernel
  injection e with _ e
  subst e
  exact absurd hc (by decide)

theorem test_witness_CancelActsByTheSlotState :
    (∀ st : SlotState, accepts (slot0 st (conv []) link) 3 .nothing = true ∧ ((slot0 st (conv []) link).slot 0).gen = h0.gen ∧
      ((slot0 st (conv []) link).slot 0).state = st) ∧
    (let d := slot0 .queued (conv []) link
     (d.slot 0).conv.origin = .host ∧ (d.slot 0).conv.mode ≠ some .fire) ∧
    (let d := slot0 .queued { conv [] with mode := some .fire } link
     accepts d 3 .nothing = true ∧ (d.slot 0).conv.mode = some .fire) ∧
    (let d := running (.pause 1) (conv [.pause 1]) link
     accepts d 3 .nothing = true ∧ (d.slot 0).gen = h0.gen ∧ (d.slot 0).state = .running ∧ (d.slot 0).conv.origin = .host ∧
       (d.slot 0).conv.mode ≠ some .fire) ∧
    (let d := running (.pause 1) { conv [.pause 1] with mode := some .fire } link
     accepts d 3 .nothing = true ∧ (d.slot 0).state = .running ∧ (d.slot 0).conv.mode = some .fire) ∧
    (let d := running (.transaction false false (.data 1)) (conv [.quick true false]) link
     accepts d 3 .nothing = true ∧ (d.slot 0).gen = h0.gen ∧ (d.slot 0).state = .running) := by
  refine ⟨fun st => ?_, by decide +kernel⟩
  cases st <;> decide +kernel

/-- A result of an ended conversation. -/
def result : ConvResult := ⟨.ok, 1, none, [1#8], none⟩

theorem test_witness_ConversationStatusShowsTheSlot :
    (let d := running (.transaction false false (.data 1)) (conv [.quick true false]) link
     accepts d 3 .nothing = true ∧ (d.slot 0).gen = h0.gen ∧ (d.slot 0).state = .running ∧ (d.slot 0).conv.stop = none ∧
       (d.seg (targetSegment d (d.slot 0).conv.target)).work = .conversation h0 (ctx (.transaction false false (.data 1)))) ∧
    (let d := running (.transaction false false (.data 1)) { conv [.quick true false] with stop := some .expired } link
     accepts d 3 .nothing = true ∧ (d.slot 0).state = .running ∧ (d.slot 0).conv.stop = some .expired) ∧
    (let d := slot0 .done { conv [] with result := some result } link
     accepts d 3 .nothing = true ∧ (d.slot 0).state = .done ∧ (d.slot 0).conv.result = some result) ∧
    (accepts (slot0 .assembling (conv []) link) 3 .nothing = true ∧ accepts (slot0 .queued (conv []) link) 3 .nothing = true) := by
  decide +kernel

theorem test_witness_FetchResultAnswersAndReleases :
    (let d := slot0 .done { conv [] with result := some result } link
     accepts d 5 .nothing = true ∧ (d.slot 0).gen = h0.gen ∧ (d.slot 0).state = .done ∧ (d.slot 0).conv.result = some result) ∧
    64 < (65#8 : Byte).toNat ∧ (64#8 : Byte).toNat ≤ 64 ∧
    (let d := slot0 .queued (conv []) link
     accepts d 5 .nothing = true ∧ (d.slot 0).gen = h0.gen ∧ (d.slot 0).state ≠ .done ∧ (d.slot 0).state ≠ .free) := by
  decide +kernel

theorem test_witness_PoolTimersExpire :
    (link.slot 0).conv.assemblyTimer = none ∧ (link.slot 0).conv.deadlineTimer = none ∧
    ((slot0 .assembling { conv [] with assemblyTimer := some 1000 } link).slot 0).conv.assemblyTimer = some 1000 ∧
    (let d := slot0 .queued { conv [] with deadlineTimer := some 9 } link
     (d.slot 0).conv.deadlineTimer = some 9 ∧ (d.slot 0).state = .queued ∧ (d.slot 0).conv.origin = .host ∧ (d.slot 0).conv.mode ≠ some .fire) ∧
    (let d := running (.pause 1) { conv [.pause 1] with deadlineTimer := some 9 } link
     (d.slot 0).conv.deadlineTimer = some 9 ∧ (d.slot 0).state = .running) ∧
    Claims.waiting (running (.pause 1) { conv [.pause 1] with deadlineTimer := some 9 } link) 0 (ctx (.pause 1)) ∧
    (let d := running (.transaction false false (.data 1)) { conv [.quick true false] with deadlineTimer := some 9 } link
     (d.slot 0).conv.deadlineTimer = some 9 ∧ (d.slot 0).state = .running) := by
  refine ⟨by decide +kernel, by decide +kernel, by decide +kernel, by decide +kernel, by decide +kernel, ⟨h0, by decide +kernel, rfl, rfl⟩,
    by decide +kernel⟩

theorem test_witness_EnteringDoneActsByModeOrOrigin :
    (∀ m ∈ [ReportMode.notify, .quiet, .fire], ((slot0 .running { conv [] with mode := some m } link).slot 0).conv.mode = some m ∧
      ((slot0 .running { conv [] with mode := some m } link).slot 0).conv.origin = .host) ∧
    (result.outcome = .ok ∧ (ConvResult.unstarted .expired).outcome ≠ .ok ∧ (ConvResult.unstarted .expired).failing = some 0) ∧
    ((slot0 .running { conv [] with origin := .poll .a 0, mode := none } link).slot 0).conv.origin = .poll .a 0 ∧
    (∀ p ∈ [Policy.onChange, .every, .failOnly],
      let d := link.setPoll .a 0 (some (poll (some h0) p))
      d.poll .a 0 = some (poll (some h0) p) ∧ d.schedule.active = .a ∧ (poll (some h0) p).outstanding = some h0 ∧
        (poll (some h0) p).config.policy = p ∧ (poll (some h0) p).failing = false) ∧
    (let d := link.setPoll .b 0 (some (poll (some h0) .every))
     d.poll .b 0 = some (poll (some h0) .every) ∧ d.schedule.active ≠ .b) ∧
    (let d := link.setPoll .a 0 (some { poll (some h0) .every with failing := true })
     d.poll .a 0 = some { poll (some h0) .every with failing := true }) ∧
    (poll none .every).outstanding ≠ some h0 ∧
    List.zipWith (· &&& ·) [9#8, 2#8] [0xFF#8, 0xFF#8] ≠ List.zipWith (· &&& ·) [1#8, 2#8] [0xFF#8, 0xFF#8] := by
  decide +kernel

theorem test_witness_ConfigureEnablesKeepsOrDisables :
    (accepts link 8 .nothing = true ∧ (link.seg 0).state = .off ∧ (link.seg 0).reception.inProgress = false) ∧
    (1 ≤ (1#8 : Byte).toNat ∧ (100#8 : Byte).toNat ≤ 100 ∧ 0x08 ≤ (0x08#8 : Byte).toNat ∧ (0x77#8 : Byte).toNat ≤ 0x77 ∧
      (0x7F#8 : Byte).toNat ≤ 0x7F) ∧
    ¬ (1 ≤ (0#8 : Byte).toNat) ∧ ¬ ((101#8 : Byte).toNat ≤ 100) ∧ ¬ ((0x80#8 : Byte).toNat ≤ 0x7F) ∧
    (let d := segOn (fun g => { g with held := true }) link
     accepts d 8 .nothing = true ∧ (d.seg 0).held = true ∧ (d.seg 0).state = .idle ∧ (d.seg 0).reception.inProgress = false ∧
       (d.seg 0).urgent = [] ∧ (d.seg 0).normal = []) ∧
    (let d := segOn (fun g => { g with held := true, state := .blocked, sweep := .stuck, emptySweeps := 8, alrLow := true }) link
     accepts d 8 .nothing = true ∧ (d.seg 0).state = .blocked ∧ (d.seg 0).sweep ≠ .idle) ∧
    (let d := segOn id link
     accepts d 8 .nothing = true ∧ (d.seg 0).held = false ∧ (d.seg 0).state = .idle) ∧
    (let d := segOn (fun g => { g with held := true, normal := [h0] }) link
     accepts d 8 .nothing = true ∧ (d.seg 0).normal ≠ []) ∧
    (let d := link.updEntry 0 fun _ => ⟨.present, 0, 0x20#7, .none, 0#16, 3, 0, 0⟩
     accepts d 8 .nothing = true ∧ (d.entry 0).presence ≠ .vacant ∧ (d.entry 0).segment = 0 ∧
       (d.entry 0).address = (0x20#8 : Byte).setWidth 7) ∧
    (let d := link.updSeg 0 fun g => { g with alrLow := true }
     accepts d 8 .nothing = true ∧ (d.seg 0).sweep = .idle ∧ (d.seg 0).alrLow = true) := by
  decide +kernel

theorem test_witness_SegmentStatusAndFaultAreShown :
    accepts link 1 .nothing = true ∧ accepts link 2 .nothing = true ∧ (link.seg 0).fault = none ∧
    (∀ r ∈ [none, some (h0, 3)], ∀ n ∈ [none, some 34],
      let f : FaultRecord := ⟨.busFault, r, n, 255⟩
      let d := segOn (fun g => { g with fault := some f }) link
      accepts d 2 .nothing = true ∧ (d.seg 0).fault = some f ∧ f.running = r ∧ f.byteIndex = n) ∧
    (∀ p ∈ [BusPos.waitFree, .start, .address, .data 1, .checkByte 2, .stop 1 true],
      ((sweeping p link).seg 0).work = .sweep p ∧ (p = .waitFree ∨ (sweeping p link).txn 0 = some sweepTxn)) := by
  decide +kernel

theorem test_sub_state_codes :
    subState 0 (running (.transaction true false (.data 1)) (conv [.read (some 1#8) 2 false]) link) = 5#8 ∧
    subState 0 (running (.transaction false false (.data 1)) (conv [.read (some 1#8) 2 false]) link) = 4#8 ∧
    subState 0 (running (.pause 1) (conv [.pause 1]) link) = 0#8 := by
  decide +kernel

theorem test_witness_HoldReleaseAndFlush :
    accepts link 1 .nothing = true ∧
    (let d := segOn (fun g => { g with urgent := [h0] }) (slot0 .queued (conv []) link)
     accepts d 1 .nothing = true ∧ h0 ∈ (d.seg 0).urgent ++ (d.seg 0).normal ∧ (d.slot h0.slot).conv.origin = .host ∧
       (d.slot h0.slot).conv.mode ≠ some .fire ∧ (((d.seg 0).urgent ++ (d.seg 0).normal).map Handle.slot).Nodup ∧
       ∀ h ∈ (d.seg 0).urgent ++ (d.seg 0).normal, h.slot ≠ 1) ∧
    (let d := segOn (fun g => { g with urgent := [h0] }) (slot0 .queued { conv [] with mode := some .fire } link)
     accepts d 1 .nothing = true ∧ (d.slot h0.slot).conv.mode = some .fire ∧ (d.seg 0).held = false) ∧
    (accepts (segOn (fun g => { g with held := true }) link) 1 .nothing = true ∧
      ((segOn (fun g => { g with held := true }) link).seg 0).held = true) := by
  decide +kernel

/-- N1 waits on a segment that is HELD, IDLE and free: RELEASE_SEGMENT starts it in the same step (R54, R47). -/
theorem test_release_starts_the_waiting_conversation :
    let d := segOn (fun g => { g with owner := .free, held := true, normal := [h0] }) (slot0 .queued (conv [.quick true false]) link)
    (next (exec (.releaseSegment 1#8 [0#8]) (at' d))).map (fun t => ((t.dev.slot 0).state, (t.dev.seg 0).work, (t.dev.seg 0).normal)) =
      some (.running, .conversation h0 (ctx (.transaction false false .start)), []) := by
  decide +kernel

theorem test_witness_ResetSegmentForcesRecovery :
    (accepts link 1 .nothing = true ∧ (link.seg 0).state = .off) ∧
    (let d := running (.transaction false false .address) (conv [.quick true false]) link
     accepts d 1 .nothing = true ∧ (d.seg 0).state ≠ .off ∧ (d.seg 0).work = .conversation h0 (ctx (.transaction false false .address)) ∧
       (d.slot h0.slot).conv.origin = .host ∧ (d.slot h0.slot).conv.mode ≠ some .fire ∧ (d.seg 0).reception.writes = false) ∧
    (let d := segOn (fun g => { g with state := .recovering, fromBlocked := true }) link
     accepts d 1 .nothing = true ∧ (d.seg 0).state = .recovering ∧ (d.seg 0).fromBlocked = true) ∧
    (let d := segOn (fun g => { g with reception := .write .direct [] false }) link
     accepts d 1 .nothing = true ∧ (d.seg 0).state ≠ .off ∧ (d.seg 0).reception.writes = true ∧
       (d.seg 0).work = .nothing) ∧
    (let d := running (.transaction false false .address) (conv [.write none [1#8] false false]) link
     let noted := takeNote (some ⟨0, .data 1, []⟩) d
     (noted.seg 0).work = .conversation h0 (ctx (.transaction false false (.data 1))) ∧ Claims.sampled (.data 1) = some true) := by
  decide +kernel

theorem test_witness_SelectionFollowsTheArbiter :
    (let d := segOn (fun g => { g with owner := .free, sweep := .pending }) link
     (d.seg 0).state = .idle ∧ (d.seg 0).held = false ∧ (d.seg 0).owner = .free ∧ (d.seg 0).sweep = .pending) ∧
    (let d := segOn (fun g => { g with owner := .free }) link
     (d.seg 0).sweep ≠ .pending ∧ (d.seg 0).work = .nothing ∧ (d.seg 0).urgent = [] ∧ (d.seg 0).normal = []) ∧
    ((sweeping .start link).seg 0).work ≠ .nothing ∧
    ((segOn id link).seg 0).owner ≠ .free ∧
    (let d := segOn (fun g => { g with owner := .free, urgent := [h0] }) (slot0 .queued (conv [.pause 3]) link)
     (d.seg 0).state = .idle ∧ (d.seg 0).held = false ∧ (d.seg 0).owner = .free ∧ (d.seg 0).sweep ≠ .pending ∧ (d.seg 0).urgent = [h0] ∧
       (d.seg 0).normal = [] ∧ (d.slot 0).conv.stop = none ∧ (d.slot 0).conv.steps[0]? = some (.pause 3)) ∧
    (let d := segOn (fun g => { g with owner := .free, urgent := [h0], normal := [⟨1, 0#11⟩], streak := 3 }) (slot0 .queued (conv [.quick true false]) link)
     (d.seg 0).urgent = [h0] ∧ (d.seg 0).normal ≠ [] ∧ (d.seg 0).streak < 4 ∧ (d.slot 0).conv.steps[0]? = some (.quick true false)) ∧
    (let d := segOn (fun g => { g with owner := .free, urgent := [⟨1, 0#11⟩], normal := [h0], streak := 4 }) (slot0 .queued (conv [.quick true false]) link)
     (d.seg 0).normal = [h0] ∧ 4 ≤ (d.seg 0).streak ∧ (d.slot 0).conv.stop = none) ∧
    (let d := segOn (fun g => { g with owner := .free, normal := [h0] }) (slot0 .queued (conv [.quick true false]) link)
     (d.seg 0).normal = [h0] ∧ (d.seg 0).urgent = []) := by
  decide +kernel

theorem test_witness_TransactionOutcomeFollowsTheAnswers :
    (let received : List Byte := [1#8, 2#8]
     2 ≤ received.length ∧ received.length = 2 ∧ (2#8 : Byte).toNat ≤ received.length ∧ received.length = (2#8 : Byte).toNat) ∧
    crc8 ([addressByte 0x20#7 false, 5#8, addressByte 0x20#7 true] ++ [1#8, 2#8]) ≠ 0#8 ∧
    crc8 ([addressByte 0x20#7 false, 5#8, addressByte 0x20#7 true, 2#8] ++ [1#8, 2#8]) ≠ 0#8 ∧
    (33#8 : Byte).toNat > 32 ∧ (1 ≤ (32#8 : Byte).toNat ∧ (32#8 : Byte).toNat ≤ 32) ∧
    crc8 (addressByte 0x20#7 true :: [1#8, 2#8]) ≠ crc8 (addressByte 0x20#7 true :: [1#8, 3#8]) := by
  decide +kernel

theorem test_witness_TransactionEndIsJudgedAndActedOn :
    (link.seg 0).work = .nothing ∧
    (let d := running (.transaction false false .address) (conv [.quick true false]) link
     (d.seg 0).work = .conversation h0 (ctx (.transaction false false .address)) ∧ BusPos.address ≠ .waitFree ∧
       (d.conv h0).steps[(ctx (.transaction false false .address)).current]? = some (.quick true false)) ∧
    (let d := sweeping .address link
     (d.seg 0).work = .sweep .address ∧ (d.seg 0).alrLow = true ∧ (d.seg 0).emptySweeps + 1 < 8 ∧
       (∀ i, (d.entry i).presence ≠ .vacant → (d.entry i).segment = 0 → (d.entry i).address ≠ ((0x41#8 : Byte) >>> 1).setWidth 7)) ∧
    (let d := (sweeping .address link).updSeg 0 fun g => { g with emptySweeps := 6 }
     (d.seg 0).emptySweeps + 1 < 8) ∧
    (let d := (sweeping .address link).updSeg 0 fun g => { g with emptySweeps := 7 }
     8 ≤ (d.seg 0).emptySweeps + 1) ∧
    (let d := (sweeping .address link).updSeg 0 fun g => { g with alrLow := false }
     (d.seg 0).work = .sweep .address ∧ (d.seg 0).alrLow = false) ∧
    (let d := (sweeping .address link).updEntry 5 fun _ => ⟨.present, 0, 0x20#7, .none, 0#16, 3, 0, 0⟩
     (d.seg 0).work = .sweep .address ∧ (d.entry 5).presence ≠ .vacant ∧ (d.entry 5).segment = 0 ∧
       (d.entry 5).address = ((0x41#8 : Byte) >>> 1).setWidth 7 ∧
       (∀ j : TargetId, j < 5 → (d.entry j).presence ≠ .vacant → (d.entry j).segment = 0 → (d.entry j).address ≠ ((0x41#8 : Byte) >>> 1).setWidth 7)) := by
  decide +kernel

theorem test_witness_OutcomeClassDecidesWhatFollows :
    (let d := running (.transaction false false .address) (conv [.quick true true, .quick false false, .pause 3]) link
     (d.conv h0).steps[0 + 1]? = some (.quick false false) ∧ (d.conv h0).steps[1 + 1]? = some (.pause 3) ∧ (d.conv h0).steps[2 + 1]? = none ∧
       (d.conv h0).stop = none ∧ (ctx (.pause 3)).retryCount < (d.conv h0).retry.retries) ∧
    (let d := running (.transaction false false .address) { conv [.quick true false] with stop := some .cancelled, retry := ⟨0, 5, 3⟩ } link
     (d.conv h0).stop = some .cancelled ∧ (d.conv h0).retry.retries ≤ (ctx (.pause 3)).retryCount) ∧
    ((Machine.Step.read (some 1#8) 2 false).twoHalves = true ∧ (Machine.Step.quick true true).joined = true ∧
      (Machine.Step.write none [1#8] false false).tolerates = false ∧ (Machine.Step.write none [1#8] true true).tolerates = true) ∧
    (let d := running (.transaction false false .address) (conv [.quick true false, .quick false false]) link
     (d.conv h0).steps[0 + 1]? = some (.quick false false) ∧ (Machine.Step.quick true false).joined = false ∧
       (Machine.Step.quick true false).twoHalves = false ∧ (d.conv h0).stop = none ∧
       (d.seg 0).owner ≠ .free) ∧
    (let d := running (.transaction true false .address) (conv [.waitUntil 1#8 1 [0x0F#8] [0x15#8] 7 2, .quick false false, .pause 3]) link
     (d.conv h0).steps[(ctx (.pause 3)).current + 1]? = some (.quick false false) ∧ (d.conv h0).steps[1 + 1]? = some (.pause 3)) ∧
    (let bytes : List Byte := [5#8]
     List.zipWith (· &&& ·) bytes [0x0F#8] = List.zipWith (· &&& ·) [0x15#8] [0x0F#8] ∧
       List.zipWith (· &&& ·) bytes [0xFF#8] ≠ List.zipWith (· &&& ·) [0x15#8] [0xFF#8]) ∧
    (1 ≤ (ctx (.pause 3)).attempt + 1 ∧ (ctx (.pause 3)).attempt + 1 < 2) := by
  decide +kernel

theorem test_witness_ArbitrationLossRepeatsOrEnds :
    (link.seg 0).work = .nothing ∧ ((sweeping .address link).seg 0).work = .sweep .address ∧
    (let d := running (.transaction false false .address) (conv [.write none [1#8] false false]) link
     (d.seg 0).work = .conversation h0 (ctx (.transaction false false .address)) ∧
       (d.conv h0).steps[0]? = some (.write none [1#8] false false) ∧ (d.conv h0).stop = none ∧
       (ctx (.transaction false false .address)).losses < (d.conv h0).retry.budget ∧
       0 < (txnOf 0x20#7 false false (.write none [1#8] false false)).sent ∧ 1 < (txnOf 0x20#7 false false (.write none [1#8] false false)).sent) ∧
    (let d := running (.transaction false false .address) { conv [.quick true false] with retry := ⟨2, 5, 0⟩ } link
     (d.conv h0).stop = none ∧ (d.conv h0).retry.budget ≤ (ctx (.transaction false false .address)).losses) ∧
    (let d := running (.transaction false false .address) { conv [.quick true false] with stop := some .expired } link
     (d.conv h0).stop = some .expired) := by
  decide +kernel

theorem test_witness_TimedWaitsExpireIntoTheNextAction :
    (∀ p ∈ [Phase.retryGap 5, .interval 7, .pause 9, .transaction false false .address],
      let d := running p (conv [.pause 9, .pause 3, .quick true false]) link
      (d.seg 0).work = .conversation h0 (ctx p) ∧ (ctx p).phase = p ∧ (d.conv h0).stop = none ∧
        (d.conv h0).steps[(ctx p).current + 1]? = some (.pause 3)) ∧
    (let d := running (.pause 9) { conv [.pause 9] with stop := some .cancelled } link
     (d.conv h0).stop = some .cancelled ∧ (d.conv h0).steps[(ctx (.pause 9)).current + 1]? = none) ∧
    (let d := running (.pause 9) { conv [.pause 9, .quick true false] with stop := some .cancelled } link
     (d.conv h0).stop = some .cancelled ∧ (d.conv h0).steps[(ctx (.pause 9)).current + 1]? = some (.quick true false)) := by
  decide +kernel

theorem test_witness_StallsAndFaultsStartRecovery :
    (let d := running (.transaction false false .start) (conv [.quick true false]) link
     (d.seg 0).work = .conversation h0 (ctx (.transaction false false .start)) ∧ d.canBeAt 0 .address = true ∧ (d.seg 0).work.pos = some .start ∧
       d.canBeAt 0 (.stop 0 true) = true ∧ (d.conv h0).origin = .host ∧ (d.conv h0).mode ≠ some .fire ∧ (d.seg 0).fault = none) ∧
    (let d := sweeping .start link
     (d.seg 0).work = .sweep .start ∧ d.canBeAt 0 (.data 1) = true ∧ (d.seg 0).work.pos = some .start) ∧
    (let d := running (.transaction false false .waitFree) (conv [.quick true false]) link
     (d.seg 0).work.pos = some .waitFree) ∧
    (let d := segOn (fun g => { g with sweep := .pending, fault := some ⟨.busFault, none, none, 255⟩ }) link
     (d.seg 0).state = .idle ∧ (d.seg 0).work = .nothing ∧ (d.seg 0).held = false ∧ (d.seg 0).owner = .taken ∧ (d.seg 0).sweep = .pending) ∧
    (link.seg 0).reception.inProgress = false ∧
    (let d := segOn (fun g => { g with reception := .write .direct [] false }) link
     (d.seg 0).reception.inProgress = true ∧ (d.seg 0).lineWatch = false) ∧
    (let d := segOn (fun g => { g with reception := .directRead 16, normal := [h0] }) link
     (d.seg 0).reception.inProgress = true ∧ (d.seg 0).lineWatch = true) := by
  decide +kernel

theorem test_witness_RecoveryEndsIdleOrBlocked :
    (let d := segOn (fun g => { g with state := .recovering, fromBlocked := true, alrLow := true }) link
     (d.seg 0).state = .recovering) ∧
    recoveryEnds ⟨false, [.sdaLow, .sdaHigh], .linesHigh⟩ = some (2, true) ∧ recoveryEnds ⟨false, [.sdaHigh], .sdaStuck⟩ = some (1, false) ∧
    recoveryEnds ⟨false, List.replicate 9 .sdaLow, .linesHigh⟩ = some (9, false) ∧ 8 < 9 := by
  decide +kernel

/-- A recovery on a bus that is free, with a conversation waiting: its STOP takes the bus and nothing starts; the free time over, the
conversation starts (R77, R78, and the last two rows of 4.13). -/
theorem test_recovery_selects_after_the_free_time :
    let d := segOn (fun g => { g with state := .recovering, fromBlocked := true, owner := .free, normal := [h0] })
      (slot0 .queued (conv [.quick true false]) link)
    let recovered := recoverySucceeds 0 ⟨true, [], .linesHigh⟩ d
    ((recovered.seg 0).state, (recovered.seg 0).owner, (recovered.seg 0).freeCount, (recovered.slot 0).state) = (.idle, .taken, true, .queued) ∧
    (((freeTimeExpires 0 recovered).seg 0).work, ((freeTimeExpires 0 recovered).slot 0).state) =
      (.conversation h0 (ctx (.transaction false false .start)), .running) := by
  decide +kernel

theorem test_witness_OwnershipFollowsTheBus :
    (link.seg 0).config.enabled = false ∧ (link.seg 0).freeCount = false ∧ ((segOn id link).seg 0).config.enabled = true ∧
    ((segOn (fun g => { g with freeCount := true }) link).seg 0).freeCount = true := by
  decide +kernel

theorem test_witness_ReceiverTakesPartByTheTable :
    (link.seg 0).state = .off ∧
    (let d := segOn (fun g => { g with config := { g.config with broadcast := true } }) link
     (d.seg 0).state = .idle ∧ (d.seg 0).config.ownAddress = ((0x60#8 : Byte) >>> 1).setWidth 7 ∧ (d.seg 0).config.ownAddress ≠ 0#7 ∧
       (d.seg 0).work.onWire = false ∧ (0x60#8 : Byte).getLsbD 0 = false ∧ (0x61#8 : Byte).getLsbD 0 = true ∧
       ((0x00#8 : Byte) >>> 1).setWidth 7 = 0#7 ∧ (d.seg 0).config.broadcast = true ∧
       0 < 16 - ((endReception 0 d).inbox.entries.length + (endReception 0 d).inbox.reserved)) ∧
    (let d := (segOn id link).updInbox fun x => { x with reserved := 16 }
     16 - ((endReception 0 d).inbox.entries.length + (endReception 0 d).inbox.reserved) = 0) ∧
    ((running (.transaction false false .address) (conv []) link).seg 0).work.onWire = true ∧
    (let d := segOn (fun g => { g with reception := .write .direct (List.replicate 31 7#8) false }) link
     (d.seg 0).reception = .write .direct (List.replicate 31 7#8) false ∧ (List.replicate 31 7#8 : List Byte).length < 32 ∧
       32 ≤ (List.replicate 32 7#8 : List Byte).length ∧ (∀ e ∈ d.inbox.entries, e.bytes ≠ List.replicate 31 7#8)) ∧
    (let d := (segOn (fun g => { g with reception := .write .direct [7#8] true }) link).updInbox fun x =>
       { x with entries := [⟨0, .direct, [7#8], false, 1⟩] }
     d.inbox.entries = [] ++ ⟨0, .direct, [7#8], false, 1⟩ :: []) ∧
    (link.seg 0).reception.writes = false ∧ ([true, true] : List Bool) ≠ [] ∧ (∀ b ∈ [true, true], b = true) ∧ false ∈ [true, false] := by
  decide +kernel

/-- A direct read of 16 free places: the count, then 0xFF, then nothing after the master's NAK (R111). -/
theorem test_direct_read_stops_at_the_master_nak :
    (Reception.directRead 16).sends [] = some 16#8 ∧ (Reception.directRead 16).sends [true, true] = some 0xFF#8 ∧
    (Reception.directRead 16).sends [false] = none ∧ (Reception.directRead 16).sends [true, false, true] = none := by
  decide +kernel

theorem test_witness_InboxIsFetchedOldestFirst :
    accepts link 0 .nothing = true ∧ link.inbox.entries = [] ∧ accepts link 1 .nothing = true ∧
    (let d := link.updInbox fun x => { x with entries := [⟨0, .direct, [7#8], false, 1⟩] }
     accepts d 0 .nothing = true ∧ d.inbox.entries = ⟨0, .direct, [7#8], false, 1⟩ :: []) := by
  decide +kernel

theorem test_witness_AlertLineArmsAndDisarmsSweeps :
    (let d := segOn (fun g => { g with config := { g.config with sweepEnable := true } }) link
     (d.seg 0).state ≠ .off ∧ (d.seg 0).sweep = .idle ∧ (d.seg 0).config.sweepEnable = true) ∧
    (link.seg 0).state = .off ∧
    (∀ w ∈ [Sweep.holdoff, .stuck, .pending], ∀ low ∈ [true, false],
      let d := segOn (fun g => { g with sweep := w, alrLow := low }) link
      (d.seg 0).state ≠ .off ∧ (d.seg 0).sweep = w ∧ (d.seg 0).alrLow = low) := by
  decide +kernel

theorem test_witness_ScheduleRequestsFollowItsState :
    accepts link 0 .nothing = true ∧ accepts link 1 .nothing = true ∧ link.schedule.running = false ∧
    (1 ≤ (1#8 : Byte).toNat ∧ (100#8 : Byte).toNat ≤ 100 ∧ 100 < (101#8 : Byte).toNat) ∧
    (∀ p ∈ [true, false],
      let d := link.updSchedule fun s => { s with running := true, timer := some 10, swapPending := p }
      accepts d 0 .nothing = true ∧ accepts d 1 .nothing = true ∧ d.schedule.running = true ∧ d.schedule.swapPending = p) := by
  decide +kernel

theorem test_witness_SwapCarriesOverEqualQuestions :
    link.poll link.schedule.active.other 0 = none ∧
    (let d := (link.setPoll .a 0 (some (poll none .every))).setPoll .b 0 (some (poll none .failOnly))
     d.poll d.schedule.active 0 = some (poll none .every) ∧ d.poll d.schedule.active.other 0 = some (poll none .failOnly) ∧
       (poll none .every).config.target = (poll none .failOnly).config.target ∧ (poll none .every).config.command = (poll none .failOnly).config.command ∧
       (poll none .every).config.length = (poll none .failOnly).config.length) := by
  decide +kernel

theorem test_witness_PollEntriesAreEditedReadAndEvaluated_the_edits :
    accepts link 14 .nothing = true ∧ accepts link 0 .nothing = true ∧ accepts link 1 .nothing = true ∧ accepts link 2 .nothing = true ∧
    (1 ≤ (4#8 : Byte).toNat ∧ (4#8 : Byte).toNat ≤ 4 ∧ (1000#16 : Half).toNat ≤ 1000 ∧ (999#16 : Half).toNat < (1000#16 : Half).toNat) ∧
    ¬ ((1000#16 : Half).toNat < (1000#16 : Half).toNat) ∧ (link.entry 0).presence = .vacant ∧ link.schedule.swapPending = false ∧
    (accepts (entryAt 0 .withdrawing 0 link) 14 .nothing = true ∧ ((entryAt 0 .withdrawing 0 link).entry 0).presence = .withdrawing) ∧
    (let d := entryAt 0 .present 0 link
     accepts d 14 .nothing = true ∧ (d.entry 0).presence = .present ∧ d.poll d.schedule.active.other 0 = none) ∧
    (let d := (referenced link).setPoll .b 0 (some (poll none .every))
     accepts d 14 .nothing = true ∧ accepts d 1 .nothing = true ∧ accepts d 2 .nothing = true ∧
       d.poll d.schedule.active.other 0 = some (poll none .every) ∧ (d.entry 0).presence = .present ∧
       accepts d 0 .nothing = true ∧ d.schedule.swapPending = false ∧ namings d d.schedule.active.other 0 = 1 ∧
       (∀ t, namings d d.schedule.active.other t ≠ 0 → (d.entry t).presence ≠ .withdrawing)) ∧
    (let d := link.updSchedule fun s => { s with running := true, timer := some 10, swapPending := true }
     accepts d 14 .nothing = true ∧ accepts d 0 .nothing = true ∧ accepts d 1 .nothing = true ∧ d.schedule.swapPending = true) := by
  decide +kernel

theorem test_witness_PollEntriesAreEditedReadAndEvaluated_the_frame :
    link.schedule.running = false ∧ link.poll link.schedule.active 0 = none ∧
    (∀ p ∈ [true, false],
      let d := link.updSchedule fun s => { s with running := true, timer := some 10, swapPending := p }
      d.schedule.running = true ∧ d.schedule.timer = some 10 ∧ d.schedule.swapPending = p) ∧
    (let d := (link.setPoll .a 0 (some (poll none .every))).updSchedule fun s => { s with frame := 7#32 }
     d.poll .a 0 = some (poll none .every) ∧ d.schedule.active = .a ∧ d.schedule.frame.toNat % (poll none .every).config.period = (poll none .every).config.phase ∧
       (∀ j : SlotId, j < 0 → (d.slot j).state ≠ .free) ∧ (d.slot 0).state = .free ∧ (d.seg (d.entry 0).segment).state = .off) ∧
    (let d := link.setPoll .a 0 (some (poll none .every))
     d.schedule.frame.toNat % (poll none .every).config.period ≠ (poll none .every).config.phase) ∧
    (let d := segOn id (link.setPoll .a 0 (some (poll none .every)))
     (d.seg (d.entry 0).segment).state ≠ .off ∧ (d.slot 0).state = .free) ∧
    ((poll (some h0) .every).outstanding ≠ none ∧ (poll (some h0) .every).overrun = 0 ∧ (poll none .every).skipReported = false) ∧
    (∀ i, ((everySlot link).slot i).state ≠ .free) := by
  decide +kernel

theorem test_witness_CommandsLeaveTheRestAlone :
    Claims.eventSegment (.alrFall 0) = some 0 ∧ (∃ t, exec (.alrFall 0) (at' link) = .next t) ∧
    (∃ t, exec (.assemblyExpiry 0) (at' link) = .next t) ∧
    requestOf (.flushSegment 1#8 [0#8]) = some (.flushSegment, 1#8, [0#8]) ∧ accepts link [(0#8 : Byte)].length .nothing = true ∧
    ∃ t, exec (.flushSegment 1#8 [0#8]) (at' link) = .next t :=
  ⟨rfl, ⟨_, rfl⟩, ⟨_, rfl⟩, rfl, rfl, _, rfl⟩

end Sys2Proof.Tests
end

section
/-! PROOFS. What a property of the device needs so that every step keeps it: the port's part is proved here once, the owners' answers and the
events are what remains of a law. -/

namespace Sys2Proof.Machine

/-! ## Events as actions on the device -/

/-- The action of a command that neither is a request nor belongs to the port: the events of timers, engines, receivers and the frame timer. -/
def eventAction : Instr → Option (Device → Device)
  | .assemblyExpiry i => some (assemblyExpires i)
  | .deadlineExpiry i => some (deadlineExpires i)
  | .conversationStart g => some (startConversation g)
  | .sweepStart g => some (startSweep g)
  | .transactionEnd g n l => some (transactionEnds g n l)
  | .arbLost g k => some (losesArbitration g k)
  | .retryGapExpiry g => some (retryGapExpires g)
  | .intervalExpiry g => some (intervalExpires g)
  | .pauseExpiry g => some (pauseExpires g)
  | .clockStall g p => some (stalls g p)
  | .busFault g s => some (faults g s)
  | .receptionStall g => some (receptionStalls g)
  | .recoverySuccess g l => some (recoverySucceeds g l)
  | .recoveryFailure g l => some (recoveryFails g l)
  | .busStartSeen g => some (startSeen g)
  | .busStopSeen g => some (stopSeen g)
  | .busFreeTimeExpiry g => some (freeTimeExpires g)
  | .busIdleTimeout g => some (idleTimeout g)
  | .addressByteJudged g b => some (addressSeen g b)
  | .receivedDataByte g b => some (takeDataByte g b)
  | .alrFall g => some (alrFalls g)
  | .alrRise g => some (alrRises g)
  | .sweepHoldoffExpiry g => some (holdoffExpires g)
  | .frameBoundary =>
    some fun d => if d.schedule.running && d.schedule.timer.isSome then selectAfterJoins d (frameBoundary d) else d
  | _ => none

theorem exec_event {c : Instr} {f : Device → Device} (h : eventAction c = some f) (s : State) :
    exec c s = .next { s with dev := f s.dev } := by
  cases c <;> simp only [eventAction, Option.some.injEq, reduceCtorEq] at h <;> subst h <;> rfl

/-! ## Properties that every step keeps -/

/-- A property of the device that the port, the report queue and the pins cannot break, that a reset establishes, and that every owner's answer,
every note of the wire and every event keeps. -/
structure StepKept (P : Device → Prop) : Prop where
  port : ∀ f d, P d → P (d.updPort f)
  reports : ∀ f d, P d → P (d.updReports f)
  rstn : ∀ b d, P d → P { d with rstnLow := b }
  reset : ∀ q d, P (deviceReset q d)
  owner : ∀ k body d, P d → P (owner k body d).2
  note : ∀ n d, P d → P (takeNote n d)
  event : ∀ c f d, eventAction c = some f → P d → P (f d)

variable {P : Device → Prop} {d : Device}

theorem takeRequest_kept (hP : StepKept P) (k : RequestKind) (tag : Byte) (body : List Byte) (h : P d) :
    P (takeRequest k tag body d) := by
  have hc : P (countAccepted d) := hP.port _ _ h
  unfold takeRequest
  split
  · exact hP.port _ _ h
  · refine hP.port _ _ ?_
    unfold answerRequest
    split
    · exact hc
    · split
      · exact hP.owner _ _ _ hc
      · exact hc

theorem rejectInbound_kept (hP : StepKept P) (tag : Byte) (r : RejectReason) (h : P d) : P (rejectInbound tag r d) := by
  unfold rejectInbound
  split <;> exact hP.port _ _ h

theorem judgeFrame_kept (hP : StepKept P) (kind tag len : Byte) (body : List Byte) (c0 c1 : Byte) (h : P d) :
    P (judgeFrame kind tag len body c0 c1 d) := by
  unfold judgeFrame
  split
  · split
    · exact takeRequest_kept hP _ _ _ h
    · exact rejectInbound_kept hP _ _ h
  · exact rejectInbound_kept hP _ _ (hP.port _ _ h)

theorem takeLength_kept (hP : StepKept P) (kind tag len : Byte) (h : P d) : P (takeLength kind tag len d) := by
  unfold takeLength
  split
  · split <;> exact hP.port _ _ h
  · exact rejectInbound_kept hP _ _ (hP.port _ _ (hP.port _ _ h))

theorem parseByte_kept (hP : StepKept P) (b : Byte) (h : P d) : P (parseByte b d) := by
  unfold parseByte
  split
  case h_1 =>
    split
    · exact h
    · split <;> exact hP.port _ _ h
  case h_4 => exact takeLength_kept hP _ _ _ h
  case h_5 => split <;> exact hP.port _ _ h
  case h_7 => exact judgeFrame_kept hP _ _ _ _ _ _ (hP.port _ _ h)
  case h_8 => exact h
  all_goals exact hP.port _ _ h

theorem clockOutByte_kept (hP : StepKept P) (h : P d) : P (clockOutByte d) := by
  unfold clockOutByte
  split
  · split
    · exact hP.port _ _ h
    · unfold deliver
      split
      · exact hP.port _ _ (hP.reports _ _ h)
      · split
        · exact hP.reset _ _
        · exact hP.port _ _ h
  · exact h
  · exact h

theorem clockByte_kept (hP : StepKept P) (b : Byte) (h : P d) : P (clockByte d b) := by
  unfold clockByte
  split
  · dsimp only
    split
    · exact parseByte_kept hP b (clockOutByte_kept hP h)
    · exact clockOutByte_kept hP h
  · exact h

theorem clockBytes_kept (hP : StepKept P) (l : List Byte) (h : P d) : P (clockBytes l d) :=
  foldl_keeps _ (fun _ b hd => clockByte_kept hP b hd) l h

theorem startTransfer_kept (hP : StepKept P) (h : P d) : P (startTransfer d) := by
  unfold startTransfer
  split
  · split
    · exact hP.port _ _ h
    · exact hP.port _ _ (hP.reports _ _ h)
  · exact h
  · exact h

theorem endTransfer_kept (hP : StepKept P) (h : P d) : P (endTransfer d) := by
  have hcut : P (if d.port.parser.midFrame then countTruncated d else d) := by
    split
    · exact hP.port _ _ h
    · exact h
  unfold endTransfer
  dsimp only
  split
  · exact h
  · exact hP.port _ _ h
  · refine hP.port _ _ ?_
    generalize (if d.port.parser.midFrame then countTruncated d else d) = cut at hcut ⊢
    split
    · exact hP.port _ _ (hP.reports _ _ hcut)
    · exact hcut

/-- Every command keeps such a property: a request row clocks in its frame, an event acts, and the rest is the port's. -/
theorem exec_kept (hP : StepKept P) (c : Instr) {s t : State} (h : P s.dev) (he : exec c s = .next t) : P t.dev := by
  cases hr : requestOf c with
  | some r =>
    obtain ⟨k, tag, body⟩ := r
    rw [request_clocked hr, Host.Outcome.next.injEq] at he
    subst he
    exact clockBytes_kept hP _ (hP.note _ _ h)
  | none =>
    cases hf : eventAction c with
    | some f =>
      rw [exec_event hf, Host.Outcome.next.injEq] at he
      subst he
      exact hP.event c f _ hf h
    | none =>
      cases c <;> simp only [requestOf, eventAction, reduceCtorEq] at hr hf <;>
        simp only [exec, execRejectFrame, execStrayByte, execInboundFrameBegins, execTransferStart, execTransferEnd, execFrameDelivery,
          execRestartFallbackExpiry, execRstnAssert, execRstnRelease, execPowerOnReset, State.run, Host.Outcome.next.injEq] at he <;>
        subst he
      case rejectFrame => exact clockBytes_kept hP _ h
      case strayByte => exact clockBytes_kept hP _ h
      case inboundFrameBegins => exact clockBytes_kept hP _ h
      case transferStart => exact startTransfer_kept hP h
      case transferEnd => exact endTransfer_kept hP (clockBytes_kept hP _ h)
      case frameDelivery => exact clockBytes_kept hP _ h
      case restartFallbackExpiry =>
        show P (restartFallbackExpires _)
        unfold restartFallbackExpires
        split
        · exact hP.reset _ _
        · exact h
      case rstnAssert =>
        show P (assertReset _)
        unfold assertReset
        split
        · exact h
        · exact hP.rstn _ _ (hP.reset _ _)
      case rstnRelease =>
        show P (releaseReset _)
        unfold releaseReset
        split
        · exact hP.rstn _ _ (hP.reset _ _)
        · exact h
      case powerOnReset => exact hP.reset _ _

/-- A step carries out one command or none. -/
theorem step_kept (hP : StepKept P) {s t : State} (h : P s.dev) (hs : step s = .next t) : P t.dev := by
  unfold step at hs
  split at hs
  · rw [Host.Outcome.next.injEq] at hs
    exact hs ▸ h
  · next c rest _ => exact exec_kept hP (s := ⟨s.dev, rest⟩) c h hs

end Sys2Proof.Machine
end

section
/-! PROOFS. The directory law (01 R3): what a change of an entry or of a configuration needs to keep it, and the base at reset. -/

namespace Sys2Proof.Machine

variable {d : Device}

/-! ## What the law reads -/

/-- The law reads the directory and the own addresses alone. -/
theorem directoryLaw_of_eq {t : Device} (h : DirectoryLaw d) (entry : ∀ i, t.entry i = d.entry i)
    (own : ∀ g, (t.seg g).config.ownAddress = (d.seg g).config.ownAddress) : DirectoryLaw t where
  distinct i j := by
    rw [entry i, entry j]
    exact h.distinct i j
  notOwn i := by
    rw [entry i, own]
    exact h.notOwn i

/-- An entry may change if what stands there afterwards is VACANT, or is told from every other entry and from the own address. -/
theorem directoryLaw_updEntry (h : DirectoryLaw d) (i : TargetId) (f : Entry → Entry)
    (hd : (f (d.entry i)).presence ≠ .vacant → ∀ j, j ≠ i → (d.entry j).presence ≠ .vacant →
      (d.entry j).segment = (f (d.entry i)).segment → (d.entry j).address ≠ (f (d.entry i)).address)
    (ho : (f (d.entry i)).presence ≠ .vacant → (d.seg (f (d.entry i)).segment).config.ownAddress ≠ 0#7 →
      (f (d.entry i)).address ≠ (d.seg (f (d.entry i)).segment).config.ownAddress) :
    DirectoryLaw (d.updEntry i f) where
  distinct a b := by
    simp only [updEntry_entry]
    intro pa pb hs haddr
    by_cases ha : i = a <;> by_cases hb : i = b
    · exact ha ▸ hb
    · subst ha
      rw [if_pos rfl] at pa hs haddr
      rw [if_neg hb] at pb hs haddr
      exact absurd haddr.symm (hd pa b (Ne.symm hb) pb hs.symm)
    · subst hb
      rw [if_pos rfl] at pb hs haddr
      rw [if_neg ha] at pa hs haddr
      exact absurd haddr (hd pb a (Ne.symm ha) pa hs)
    · rw [if_neg ha] at pa hs haddr
      rw [if_neg hb] at pb hs haddr
      exact h.distinct a b pa pb hs haddr
  notOwn a := by
    simp only [updEntry_entry, updEntry_seg_frame]
    by_cases ha : i = a
    · subst ha
      rw [if_pos rfl]
      exact ho
    · rw [if_neg ha]
      exact h.notOwn a

/-- An entry that stays where it is, or goes, keeps the law. -/
theorem directoryLaw_entryKept (h : DirectoryLaw d) (i : TargetId) (f : Entry → Entry) (hk : EntryKept (d.entry i) (f (d.entry i))) :
    DirectoryLaw (d.updEntry i f) := by
  obtain hv | ⟨hs, ha, hp, -, -⟩ := hk
  · exact directoryLaw_updEntry h i f (fun p => absurd (by rw [hv]; rfl) p) (fun p => absurd (by rw [hv]; rfl) p)
  · refine directoryLaw_updEntry h i f (fun p j hj pj e1 e2 => hj ?_) (fun p => ?_)
    · exact h.distinct j i pj (fun e => p (hp e)) (e1.trans hs) (e2.trans ha)
    · rw [hs, ha]
      exact h.notOwn i fun e => p (hp e)

theorem directoryLaw_updSeg (h : DirectoryLaw d) (g : SegId) (f : Segment → Segment)
    (hk : (f (d.seg g)).config.ownAddress = (d.seg g).config.ownAddress) : DirectoryLaw (d.updSeg g f) := by
  refine directoryLaw_of_eq h (fun _ => rfl) fun j => ?_
  rw [updSeg_seg]
  split
  · next e => exact e ▸ hk
  · rfl

/-! ## What the receivers' actions change: the inbox, the reports, and the reception records (06) -/

/-- Nothing has changed but the inbox, the reports and, in the segments, the reception record and the receiver's drive. -/
structure ReceptionOnly (d t : Device) : Prop where
  entry : ∀ i, t.entry i = d.entry i
  slot : ∀ k, t.slot k = d.slot k
  schedule : t.schedule = d.schedule
  seg : ∀ g, t.seg g = { d.seg g with reception := (t.seg g).reception, ackDriven := (t.seg g).ackDriven }

theorem ReceptionOnly.refl (d : Device) : ReceptionOnly d d := ⟨fun _ => rfl, fun _ => rfl, rfl, fun _ => rfl⟩

theorem ReceptionOnly.updInbox {t : Device} (h : ReceptionOnly d t) (f : Inbox → Inbox) : ReceptionOnly d (t.updInbox f) :=
  ⟨h.entry, h.slot, h.schedule, h.seg⟩

theorem ReceptionOnly.post {t : Device} (h : ReceptionOnly d t) (b : ReportBody) : ReceptionOnly d (post b t) :=
  ⟨h.entry, h.slot, h.schedule, h.seg⟩

theorem ReceptionOnly.record {t : Device} (h : ReceptionOnly d t) (g : SegId) (r : Reception) (a : Bool) :
    ReceptionOnly d (t.updSeg g fun x => { x with reception := r, ackDriven := a }) :=
  ⟨h.entry, h.slot, h.schedule, fun j => by
    rw [updSeg_seg]
    split
    · rw [h.seg j]
    · exact h.seg j⟩

theorem closeRecord_receptionOnly (g : SegId) {t : Device} (h : ReceptionOnly d t) : ReceptionOnly d (closeRecord g t) := h.record g _ _

theorem cutReception_receptionOnly (g : SegId) (d : Device) : ReceptionOnly d (cutReception g d) := by
  unfold cutReception
  split
  · exact closeRecord_receptionOnly g ((ReceptionOnly.refl d).updInbox _)
  · exact closeRecord_receptionOnly g (.refl d)
  · exact closeRecord_receptionOnly g (.refl d)
  · exact .refl d

theorem endReception_receptionOnly (g : SegId) (d : Device) : ReceptionOnly d (endReception g d) := by
  unfold endReception
  split
  · refine closeRecord_receptionOnly g ?_
    split
    · exact (ReceptionOnly.refl d).updInbox _
    · unfold storeMessage
      split
      · exact (ReceptionOnly.refl d).updInbox _
      · exact ((ReceptionOnly.refl d).updInbox _).post _
  · exact closeRecord_receptionOnly g (.refl d)
  · exact closeRecord_receptionOnly g (.refl d)
  · exact .refl d

theorem requestPlace_receptionOnly (g : SegId) (k : InboxKind) {t : Device} (h : ReceptionOnly d t) :
    ReceptionOnly d (requestPlace g k t) := by
  unfold requestPlace
  split
  · exact (h.updInbox _).record g _ _
  · exact (h.updInbox _).record g _ _

theorem judgeAddress_receptionOnly (g : SegId) (b : Byte) {t : Device} (h : ReceptionOnly d t) : ReceptionOnly d (judgeAddress g b t) := by
  unfold judgeAddress
  dsimp only
  split
  · split
    · exact h.record g _ _
    · exact requestPlace_receptionOnly g _ h
  · split
    · exact requestPlace_receptionOnly g _ h
    · exact closeRecord_receptionOnly g h

theorem addressSeen_receptionOnly (g : SegId) (b : Byte) (d : Device) : ReceptionOnly d (addressSeen g b d) := by
  unfold addressSeen
  split
  · exact judgeAddress_receptionOnly g b (endReception_receptionOnly g d)
  · exact .refl d

theorem takeDataByte_receptionOnly (g : SegId) (b : Byte) (d : Device) : ReceptionOnly d (takeDataByte g b d) := by
  unfold takeDataByte
  split
  · split <;> exact (ReceptionOnly.refl d).record g _ _
  · exact .refl d
  · exact .refl d
  · exact .refl d

theorem DirectoryLaw.of_receptionOnly {t : Device} (h : DirectoryLaw d) (k : ReceptionOnly d t) : DirectoryLaw t :=
  directoryLaw_of_eq h k.entry fun g => by rw [k.seg g]

/-- The directory law is kept by every action of Laws/Closed. -/
theorem directoryLaw_closed : Closed DirectoryLaw where
  post _ _ _ h := directoryLaw_of_eq h (fun _ => rfl) fun _ => rfl
  slot _ _ _ h := directoryLaw_of_eq h (fun _ => rfl) fun _ => rfl
  entry i f _ hk h := directoryLaw_entryKept h i f hk
  seg g f _ hk h := directoryLaw_updSeg h g f (by rw [hk.2])
  sched _ _ _ h := directoryLaw_of_eq h (fun _ => rfl) fun _ => rfl
  cut g d h := h.of_receptionOnly (cutReception_receptionOnly g d)

/-! ## The schedule's start and its frame boundary, for a property that the schedule cannot break -/

theorem frameBoundary_closed {P : Device → Prop} (hP : Closed P) (hs : ∀ f d, P d → P (Device.updSchedule f d)) (h : P d) :
    P (frameBoundary d) := by
  unfold frameBoundary
  exact hs _ _ (evaluateFrame_closed hP (swapIfPending_closed hP (hs _ _ h)))

theorem startSchedule_closed {P : Device → Prop} (hP : Closed P) (hs : ∀ f d, P d → P (Device.updSchedule f d)) (h : P d) :
    P (startSchedule d) := by
  unfold startSchedule
  exact hs _ _ (evaluateFrame_closed hP (hs _ _ h))

theorem directoryLaw_updSchedule (f : Schedule → Schedule) (d : Device) (h : DirectoryLaw d) : DirectoryLaw (d.updSchedule f) :=
  directoryLaw_of_eq h (fun _ => rfl) fun _ => rfl

/-! ## The events -/

theorem directoryLaw_event (c : Instr) (f : Device → Device) (d : Device) (hf : eventAction c = some f) (h : DirectoryLaw d) :
    DirectoryLaw (f d) := by
  have hP := directoryLaw_closed
  cases c <;> simp only [eventAction, Option.some.injEq, reduceCtorEq] at hf <;> subst hf
  case assemblyExpiry => exact assemblyExpires_closed hP _ h
  case deadlineExpiry => exact deadlineExpires_closed hP _ h
  case conversationStart => exact startConversation_closed hP _ h
  case sweepStart => exact startSweep_closed hP _ h
  case transactionEnd => exact transactionEnds_closed hP _ _ _ h
  case arbLost => exact losesArbitration_closed hP _ _ h
  case retryGapExpiry => exact retryGapExpires_closed hP _ h
  case intervalExpiry => exact intervalExpires_closed hP _ h
  case pauseExpiry => exact pauseExpires_closed hP _ h
  case clockStall => exact stalls_closed hP _ _ h
  case busFault => exact faults_closed hP _ _ h
  case receptionStall => exact receptionStalls_closed hP _ h
  case recoverySuccess => exact recoverySucceeds_closed hP _ _ h
  case recoveryFailure => exact recoveryFails_closed hP _ _ h
  case busStartSeen g =>
    unfold startSeen
    split
    · exact directoryLaw_updSeg (h.of_receptionOnly (endReception_receptionOnly g d)) g _ rfl
    · exact h
  case busStopSeen g =>
    unfold stopSeen
    split
    · exact directoryLaw_updSeg (h.of_receptionOnly (endReception_receptionOnly g d)) g _ rfl
    · exact h
  case busFreeTimeExpiry => exact freeTimeExpires_closed hP _ h
  case busIdleTimeout => exact idleTimeout_closed hP _ h
  case addressByteJudged => exact h.of_receptionOnly (addressSeen_receptionOnly _ _ d)
  case receivedDataByte => exact h.of_receptionOnly (takeDataByte_receptionOnly _ _ d)
  case alrFall => exact alrFalls_closed hP _ h
  case alrRise => exact alrRises_closed hP _ h
  case sweepHoldoffExpiry => exact holdoffExpires_closed hP _ h
  case frameBoundary =>
    dsimp only
    split
    · exact selectAfterJoins_closed hP _ (frameBoundary_closed hP directoryLaw_updSchedule h)
    · exact h

/-! ## The owners -/

theorem lookup_none {g : SegId} {a : Addr} (h : (lookup g a d).isSome = false) (i : TargetId)
    (hp : (d.entry i).presence ≠ .vacant) (hs : (d.entry i).segment = g) : (d.entry i).address ≠ a := by
  intro e
  rw [Option.isSome_eq_false_iff, Option.isNone_iff_eq_none, lookup, List.find?_eq_none] at h
  exact h i (List.mem_finRange i) (by simp [hp, hs, e])

theorem requestAddTarget_directoryLaw (body : List Byte) (h : DirectoryLaw d) : DirectoryLaw (requestAddTarget body d).2 := by
  unfold requestAddTarget
  split
  · split
    · dsimp only
      split
      · exact h
      · split
        · exact h
        · next hown hl =>
          split
          · exact h
          · rw [Bool.not_eq_true] at hl
            exact directoryLaw_updEntry h _ _ (fun _ j _ pj hs => lookup_none hl j pj hs) fun _ _ e => hown e.symm
    · exact h
  · exact h

theorem requestModifyTarget_directoryLaw (body : List Byte) (h : DirectoryLaw d) : DirectoryLaw (requestModifyTarget body d).2 := by
  unfold requestModifyTarget
  split
  · exact h
  · next i _ =>
    split
    · exact h
    · next hv =>
      split
      · exact h
      · split
        · exact h
        · exact directoryLaw_updEntry h i _ (fun p j hj pj e1 e2 => hj (h.distinct j i pj hv e1 e2)) fun _ => h.notOwn i hv

theorem configure_config (c : SegConfig) (g : Segment) : (g.configure c).config = c := by
  have hd : ∀ g : Segment, g.disarm.config = g.config := fun _ => rfl
  unfold Segment.configure
  dsimp only
  simp only [apply_ite Segment.config, (alrFell_kept _).2, hd, ite_self]

theorem requestConfigureSegment_directoryLaw (body : List Byte) (h : DirectoryLaw d) :
    DirectoryLaw (requestConfigureSegment body d).2 := by
  refine onSegment_keeps (fun g => ?_) h
  unfold configureSegment
  split
  · exact h
  · next c _ =>
    dsimp only
    split
    · split
      · split
        · exact h
        · next hown =>
          refine ⟨h.distinct, fun i hp => ?_⟩
          simp only [updSeg_entry_frame, updSeg_seg]
          split
          · next hg =>
            rw [configure_config]
            intro hc e
            refine hown ⟨hc, ?_⟩
            rw [lookup, List.find?_isSome]
            exact ⟨i, List.mem_finRange i, by simpa [hg, e] using hp⟩
          · exact h.notOwn i hp
      · exact h
    · exact h

theorem directoryLaw_owner (k : RequestKind) (body : List Byte) (d : Device) (h : DirectoryLaw d) : DirectoryLaw (owner k body d).2 := by
  have hP := directoryLaw_closed
  have same : ∀ {t : Device}, t.directory = d.directory → t.segments = d.segments → DirectoryLaw t := fun e1 e2 =>
    directoryLaw_of_eq h (fun i => congrArg (·.get i) e1) fun g => congrArg (fun v => (Vector.get v g).config.ownAddress) e2
  cases k
  case ping => exact h
  case restart => exact same rfl rfl
  case linkStatus =>
    show DirectoryLaw (requestLinkStatus body d).2
    unfold requestLinkStatus
    dsimp only
    split <;> exact same rfl rfl
  case setAttention =>
    show DirectoryLaw (requestSetAttention body d).2
    unfold requestSetAttention
    split <;> exact same rfl rfl
  case setReportMask =>
    show DirectoryLaw (requestSetReportMask body d).2
    unfold requestSetReportMask
    dsimp only
    split <;> exact same rfl rfl
  case addTarget => exact requestAddTarget_directoryLaw body h
  case modifyTarget => exact requestModifyTarget_directoryLaw body h
  case withdrawTarget => exact requestWithdrawTarget_closed hP body h
  case readTarget => exact (requestReadTarget_keeps body).symm ▸ h
  case listTargets => exact (requestListTargets_keeps body).symm ▸ h
  case configureSegment => exact requestConfigureSegment_directoryLaw body h
  case segmentStatus => exact (requestSegmentStatus_keeps body).symm ▸ h
  case holdSegment => exact requestHoldSegment_closed hP body h
  case releaseSegment => exact requestReleaseSegment_closed hP body h
  case resetSegment => exact requestResetSegment_closed hP body h
  case flushSegment => exact requestFlushSegment_closed hP body h
  case readFault => exact requestReadFault_closed hP body h
  case openConversation => exact requestOpenConversation_closed hP body h
  case appendSteps => exact requestAppendSteps_closed hP body h
  case submitConversation => exact requestSubmitConversation_closed hP body h
  case runConversation => exact requestRunConversation_closed hP body h
  case cancelConversation => exact requestCancelConversation_closed hP body h
  case conversationStatus => exact (requestConversationStatus_keeps body).symm ▸ h
  case fetchResult => exact requestFetchResult_closed hP body h
  case setFrame =>
    show DirectoryLaw (requestSetFrame body d).2
    unfold requestSetFrame
    split
    · split <;> exact same rfl rfl
    · exact h
  case startSchedule =>
    have hj : DirectoryLaw (selectAfterJoins d (startSchedule d)) :=
      selectAfterJoins_closed hP _ (startSchedule_closed hP directoryLaw_updSchedule h)
    show DirectoryLaw (requestStartSchedule body d).2
    unfold requestStartSchedule
    split
    · exact h
    · dsimp only
      exact hj
  case stopSchedule =>
    show DirectoryLaw (requestStopSchedule body d).2
    unfold requestStopSchedule
    dsimp only
    split
    · exact swapIfPending_closed hP (directoryLaw_updSchedule _ _ h)
    · exact h
  case putPoll => exact requestPutPoll_closed hP body h
  case clearPoll => exact requestClearPoll_closed hP body h
  case clearShadow => exact requestClearShadow_closed hP body h
  case copyActive => exact requestCopyActive_closed hP body h
  case commitBank =>
    show DirectoryLaw (requestCommitBank body d).2
    unfold requestCommitBank
    split
    · split
      · exact h
      · exact same rfl rfl
    · exact swapBanks_closed hP h
  case readPoll => exact (requestReadPoll_keeps body).symm ▸ h
  case fetchInbox =>
    show DirectoryLaw (requestFetchInbox body d).2
    unfold requestFetchInbox
    split <;> exact same rfl rfl
  case inboxStatus =>
    show DirectoryLaw (requestInboxStatus body d).2
    unfold requestInboxStatus
    dsimp only
    split <;> exact same rfl rfl

/-! ## The obligation -/

theorem deviceReset_entry (q : ReportQueue) (d : Device) (i : TargetId) : (deviceReset q d).entry i = .vacant := replicate_get ..

theorem directoryLaw_of_vacant (h : ∀ i, (d.entry i).presence = .vacant) : DirectoryLaw d :=
  ⟨fun i _ hi => absurd (h i) hi, fun i hi => absurd (h i) hi⟩

theorem directoryLaw_stepKept : StepKept DirectoryLaw where
  port _ _ h := directoryLaw_of_eq h (fun _ => rfl) fun _ => rfl
  reports _ _ h := directoryLaw_of_eq h (fun _ => rfl) fun _ => rfl
  rstn _ _ h := directoryLaw_of_eq h (fun _ => rfl) fun _ => rfl
  reset q d := directoryLaw_of_vacant fun i => by rw [deviceReset_entry]; rfl
  owner := directoryLaw_owner
  note n _ h := takeNote_closed directoryLaw_closed n h
  event := directoryLaw_event

/-- Settles O19: the law is kept by the port, a reset, each event and each owner's answer. -/
theorem everyStepKeepsTheDirectoryLaw : Obligations.EveryStepKeepsTheDirectoryLaw := fun _ _ h hs =>
  step_kept directoryLaw_stepKept h hs

end Sys2Proof.Machine
end

section
/-! PROOFS. The base of the work law (R8, R17, R45, R50): the law without the clause about ready engines, with a reference that no entry
answers for yet (`held`) and a slot whose conversation is on its way between a list, an engine and the pool (`loose`). Each change of one table
keeps it under a condition on that table's row alone. -/

namespace Sys2Proof.Machine

/-! ## Counting -/

theorem countP_update_mem {α : Type} [DecidableEq α] {p q : α → Bool} {k : α} (h : ∀ j, j ≠ k → q j = p j) (l : List α)
    (hl : l.Nodup) : l.countP q + (if k ∈ l then (p k).toNat else 0) = l.countP p + (if k ∈ l then (q k).toNat else 0) := by
  induction l with
  | nil => rfl
  | cons x l ih =>
    obtain ⟨hx, hl⟩ := List.nodup_cons.mp hl
    have := ih hl
    by_cases e : x = k
    · subst e
      simp only [hx, if_false, List.countP_cons, List.mem_cons_self, if_true] at this ⊢
      cases p x <;> cases q x <;> simp <;> omega
    · simp only [List.countP_cons, h x e, List.mem_cons, Ne.symm e, false_or]
      omega

/-- A count over a table after its predicate has changed at one index. -/
theorem countP_finRange_update {n : Nat} {p q : Fin n → Bool} (k : Fin n) (h : ∀ j, j ≠ k → q j = p j) :
    (List.finRange n).countP q + (p k).toNat = (List.finRange n).countP p + (q k).toNat := by
  simpa using countP_update_mem h (List.finRange n) (List.nodup_finRange n)

theorem countP_finRange_pos {n : Nat} {p : Fin n → Bool} {k : Fin n} (h : p k = true) : 0 < (List.finRange n).countP p :=
  List.countP_pos_iff.mpr ⟨k, List.mem_finRange k, h⟩

/-! ## What the base reads -/

/-- The handle of the conversation that an engine runs. -/
def Work.runs : Work → Option Handle
  | .nothing => none
  | .conversation h _ => some h
  | .sweep _ => none

/-- The segment of the target of a slot's conversation. -/
def Device.home (d : Device) (k : SlotId) : SegId := targetSegment d (d.slot k).conv.target

/-- A slot's conversation holds a reference on an entry (01 R8). -/
def Slot.names (x : Slot) (i : TargetId) : Bool := x.live && decide (x.conv.target = .directory i)

/-- A poll entry, if one is used, names a target. -/
def pollNames (e : Option PollEntry) (i : TargetId) : Bool := e.any fun e => e.config.target == i

/-- The one reference of a count that nothing names yet, or no longer. -/
def owed (held : Option TargetId) (i : TargetId) : Nat := (decide (held = some i)).toNat

/-- The directory entry a conversation's target is. -/
def Target.index : Target → Option TargetId
  | .directory i => some i
  | .raw .. => none

/-- A slot counts for the host's share of the pool (02 R23). -/
def Slot.hosted (x : Slot) : Bool := decide (x.state ≠ .free ∧ x.conv.origin = .host)

theorem hosted_iff {x : Slot} : x.hosted = true ↔ x.state ≠ .free ∧ x.conv.origin = .host := by simp [Slot.hosted]

/-- The work law without its clause about ready engines, with a reference of the counts that nothing names, and with a slot whose conversation
stands in no list and no engine whatever its state is. -/
structure WorkBase (held : Option TargetId) (loose : Option SlotId) (d : Device) : Prop where
  counted : ∀ i, (d.entry i).refs = references d i + owed held i
  vacant : ∀ i, (d.entry i).presence = .vacant → (d.entry i).refs = 0
  withdrawing : ∀ i, (d.entry i).presence = .withdrawing → (d.entry i).refs ≠ 0
  queued : ∀ seg c h, ((d.seg seg).waiting c).count h =
    if loose ≠ some h.slot ∧ h = d.handle h.slot ∧ (d.slot h.slot).state = .queued ∧ d.home h.slot = seg ∧
        (d.slot h.slot).conv.cls = c then 1 else 0
  engine : ∀ seg h, (d.seg seg).work.runs = some h ↔
    loose ≠ some h.slot ∧ h = d.handle h.slot ∧ (d.slot h.slot).state = .running ∧ d.home h.slot = seg
  active : ∀ seg, (d.seg seg).state = .active ↔ (d.seg seg).work ≠ .nothing
  hostHeld : hostHeld d ≤ Config.hostSlots
  streak : ∀ seg, (d.seg seg).streak ≤ Config.streakLimit
  idleTimer : ∀ k, (d.slot k).conv.assemblyTimer.isSome → (d.slot k).state = .assembling
  stops : ∀ k, (d.slot k).conv.stop.isSome → (d.slot k).state = .running
  steps : ∀ k, (d.slot k).state = .queued → (d.slot k).conv.steps ≠ []

theorem runs_eq_some {w : Work} {h : Handle} : w.runs = some h ↔ ∃ ctx, w = .conversation h ctx := by
  cases w <;> simp [Work.runs]

@[simp] theorem handle_slot (d : Device) (k : SlotId) : (d.handle k).slot = k := rfl

/-- The work law is its base, with nothing on its way, and the clause about ready engines. -/
theorem workLaw_iff (d : Device) :
    WorkLaw d ↔ WorkBase none none d ∧ ∀ seg, (d.seg seg).ready = true → (d.seg seg).offers = false := by
  constructor
  · intro h
    refine ⟨⟨fun i => by simpa [owed] using h.counted i, h.vacant, h.withdrawing, ?_, ?_, h.active, h.hostHeld, h.streak, h.idleTimer,
      h.stops, h.steps⟩, h.served⟩
    · intro seg c hd
      rw [h.queued]
      simp [Device.home]
    · intro seg hd
      constructor
      · intro e
        obtain ⟨ctx, e⟩ := runs_eq_some.mp e
        exact ⟨by simp, h.engaged seg hd ctx e⟩
      · rintro ⟨-, e, hr, rfl⟩
        rw [runs_eq_some, e]
        exact h.running _ hr
  · rintro ⟨h, hs⟩
    refine ⟨fun i => by simpa [owed] using h.counted i, h.vacant, h.withdrawing, ?_, ?_, ?_, h.active, hs, h.hostHeld, h.streak,
      h.idleTimer, h.stops, h.steps⟩
    · intro seg c hd
      rw [h.queued]
      simp [Device.home]
    · intro k hr
      exact runs_eq_some.mp ((h.engine _ (d.handle k)).mpr ⟨by simp, rfl, hr, rfl⟩)
    · intro seg hd ctx e
      exact ((h.engine seg hd).mp (runs_eq_some.mpr ⟨ctx, e⟩)).2

theorem references_eq (d : Device) (i : TargetId) :
    references d i = (List.finRange 32).countP (fun k => (d.slot k).names i) +
      ((List.finRange 48).countP (fun k => pollNames (d.poll .a k) i) + (List.finRange 48).countP (fun k => pollNames (d.poll .b k) i)) := rfl

variable {held held' : Option TargetId} {loose loose' : Option SlotId} {d : Device}

/-- An entry that a live conversation names is counted. -/
theorem references_pos_of_live {k : SlotId} {i : TargetId} (hl : (d.slot k).live = true) (ht : (d.slot k).conv.target = .directory i) :
    0 < references d i := by
  rw [references_eq]
  have : 0 < (List.finRange 32).countP fun k => (d.slot k).names i := countP_finRange_pos (k := k) (by simp [Slot.names, hl, ht])
  omega

/-- An entry that a poll entry names is counted. -/
theorem references_pos_of_poll {bank : Bank} {k : PollId} {e : PollEntry} (h : d.poll bank k = some e) :
    0 < references d e.config.target := by
  rw [references_eq]
  have hp : 0 < (List.finRange 48).countP fun k => pollNames (d.poll bank k) e.config.target :=
    countP_finRange_pos (k := k) (by simp [pollNames, h])
  cases bank <;> omega

theorem live_of_queued {x : Slot} (h : x.state = .queued) : x.live = true := by simp [Slot.live, h]
theorem live_of_running {x : Slot} (h : x.state = .running) : x.live = true := by simp [Slot.live, h]
theorem live_of_assembling {x : Slot} (h : x.state = .assembling) : x.live = true := by simp [Slot.live, h]

/-! ## The slot on its way -/

/-- A slot that is neither QUEUED nor RUNNING may be taken for one on its way, and the other way round. -/
theorem WorkBase.loose_iff {k : SlotId} (hq : (d.slot k).state ≠ .queued) (hr : (d.slot k).state ≠ .running) :
    WorkBase held (some k) d ↔ WorkBase held none d := by
  have out : ∀ hd : Handle, (d.slot hd.slot).state = .queued ∨ (d.slot hd.slot).state = .running → some k ≠ some hd.slot := by
    intro hd hs e
    rw [← Option.some.inj e] at hs
    exact hs.elim hq hr
  have no : ∀ hd : Handle, (none : Option SlotId) ≠ some hd.slot := by simp
  constructor <;> intro h <;>
    refine ⟨h.counted, h.vacant, h.withdrawing, fun seg c hd => (h.queued seg c hd).trans (if_congr ?_ rfl rfl),
      fun seg hd => (h.engine seg hd).trans ?_, h.active, h.hostHeld, h.streak, h.idleTimer, h.stops, h.steps⟩
  · exact ⟨fun x => ⟨no hd, x.2⟩, fun x => ⟨out hd (Or.inl x.2.2.1), x.2⟩⟩
  · exact ⟨fun x => ⟨no hd, x.2⟩, fun x => ⟨out hd (Or.inr x.2.2.1), x.2⟩⟩
  · exact ⟨fun x => ⟨out hd (Or.inl x.2.2.1), x.2⟩, fun x => ⟨no hd, x.2⟩⟩
  · exact ⟨fun x => ⟨out hd (Or.inr x.2.2.1), x.2⟩, fun x => ⟨no hd, x.2⟩⟩

/-! ## Changes outside the tables -/

/-- The base reads the directory, the pool, the segments and what the poll entries name. -/
theorem WorkBase.of_parts (h : WorkBase held loose d) {t : Device} (entry : ∀ i, t.entry i = d.entry i)
    (slot : ∀ k, t.slot k = d.slot k) (seg : ∀ g, t.seg g = d.seg g)
    (poll : ∀ bank k i, pollNames (t.poll bank k) i = pollNames (d.poll bank k) i) :
    WorkBase held loose t := by
  have hh : ∀ k, t.home k = d.home k := fun k => by
    simp only [Device.home, slot, targetSegment]
    split <;> simp only [entry]
  have hd : ∀ k, t.handle k = d.handle k := fun k => by simp only [Device.handle, slot]
  have hr : ∀ i, references t i = references d i := fun i => by simp only [references_eq, slot, poll]
  have ho : Machine.hostHeld t = Machine.hostHeld d := by simp only [Machine.hostHeld, slot]
  obtain ⟨h1, h2, h3, h4, h5, h6, h7, h8, h9, h10, h11⟩ := h
  constructor <;> simpa only [entry, slot, seg, hh, hd, hr, ho] using by assumption

theorem WorkBase.post (h : WorkBase held loose d) (b : ReportBody) : WorkBase held loose (post b d) :=
  h.of_parts (fun _ => rfl) (fun _ => rfl) (fun _ => rfl) fun _ _ _ => rfl

theorem WorkBase.updInbox (h : WorkBase held loose d) (f : Inbox → Inbox) : WorkBase held loose (d.updInbox f) :=
  h.of_parts (fun _ => rfl) (fun _ => rfl) (fun _ => rfl) fun _ _ _ => rfl

/-- The schedule may change in all but the targets its banks name. -/
theorem WorkBase.updSchedule (h : WorkBase held loose d) (f : Schedule → Schedule)
    (hf : ∀ bank k i, pollNames (((f d.schedule).bank bank).get k) i = pollNames ((d.schedule.bank bank).get k) i) :
    WorkBase held loose (d.updSchedule f) :=
  h.of_parts (fun _ => rfl) (fun _ => rfl) (fun _ => rfl) hf

/-! ## Poll entries -/

theorem references_setPoll (bank : Bank) (k : PollId) (e : Option PollEntry) (i : TargetId) :
    references (d.setPoll bank k e) i + (pollNames (d.poll bank k) i).toNat = references d i + (pollNames e i).toNat := by
  have hk : ∀ bank', (List.finRange 48).countP (fun j => pollNames ((d.setPoll bank k e).poll bank' j) i) +
      (if bank = bank' then (pollNames (d.poll bank' k) i).toNat else 0) =
      (List.finRange 48).countP (fun j => pollNames (d.poll bank' j) i) + (if bank = bank' then (pollNames e i).toNat else 0) := by
    intro bank'
    split
    · next hb =>
      subst hb
      have := countP_finRange_update (p := fun j => pollNames (d.poll bank j) i) (q := fun j => pollNames ((d.setPoll bank k e).poll bank j) i) k
        (fun j hj => by simp [setPoll_poll, Ne.symm hj])
      simpa [setPoll_poll] using this
    · next hb => simp [setPoll_poll, hb]
  have ha := hk .a
  have hb := hk .b
  simp only [references_eq, setPoll_slot_frame]
  cases bank <;> simp at ha hb <;> omega

/-- A poll entry may be written when the references that it gives up and takes are held. -/
theorem WorkBase.setPoll (h : WorkBase held loose d) (bank : Bank) (k : PollId) (e : Option PollEntry)
    (hn : ∀ i, owed held' i + (pollNames e i).toNat = owed held i + (pollNames (d.poll bank k) i).toNat) :
    WorkBase held' loose (d.setPoll bank k e) where
  counted i := by
    have h1 := h.counted i
    have h2 := references_setPoll (d := d) bank k e i
    have h3 := hn i
    rw [setPoll_entry_frame]
    omega
  vacant := h.vacant
  withdrawing := h.withdrawing
  queued := h.queued
  engine := h.engine
  active := h.active
  hostHeld := h.hostHeld
  streak := h.streak
  idleTimer := h.idleTimer
  stops := h.stops
  steps := h.steps

/-- A used poll entry's run-time fields may change. -/
theorem WorkBase.setPoll_same (h : WorkBase held loose d) {bank : Bank} {k : PollId} {e e' : PollEntry} (he : d.poll bank k = some e)
    (hc : e'.config.target = e.config.target) : WorkBase held loose (d.setPoll bank k (some e')) :=
  h.setPoll bank k _ fun i => by simp [pollNames, he, hc]

/-! ## Directory entries -/

/-- An entry may change when its count answers for the references held, and its segment stays while something names it. -/
theorem WorkBase.updEntry (h : WorkBase held loose d) (i : TargetId) (f : Entry → Entry)
    (hrefs : (f (d.entry i)).refs + owed held i = (d.entry i).refs + owed held' i) (hother : ∀ j, j ≠ i → owed held' j = owed held j)
    (hv : (f (d.entry i)).presence = .vacant → (f (d.entry i)).refs = 0)
    (hw : (f (d.entry i)).presence = .withdrawing → (f (d.entry i)).refs ≠ 0)
    (hs : (f (d.entry i)).segment = (d.entry i).segment ∨ references d i = 0) : WorkBase held' loose (d.updEntry i f) := by
  have home : ∀ k, (d.slot k).live = true → (d.updEntry i f).home k = d.home k := by
    intro k hl
    simp only [Device.home, updEntry_slot_frame, targetSegment]
    split
    · next j ht =>
      rw [updEntry_entry]
      split
      · next e =>
        subst e
        exact hs.resolve_right (Nat.ne_of_gt (references_pos_of_live hl ht))
      · rfl
    · rfl
  have refs : ∀ j, references (d.updEntry i f) j = references d j := fun _ => rfl
  refine ⟨fun j => ?_, fun j => ?_, fun j => ?_, fun seg c hd => ?_, fun seg hd => ?_, h.active, h.hostHeld, h.streak, h.idleTimer,
    h.stops, h.steps⟩
  · have hc := h.counted j
    rw [refs, updEntry_entry]
    by_cases e : i = j
    · subst e
      rw [if_pos rfl]
      omega
    · rw [if_neg e, hother j (Ne.symm e)]
      exact hc
  · rw [updEntry_entry]
    by_cases e : i = j
    · subst e
      rw [if_pos rfl]
      exact hv
    · rw [if_neg e]
      exact h.vacant j
  · rw [updEntry_entry]
    by_cases e : i = j
    · subst e
      rw [if_pos rfl]
      exact hw
    · rw [if_neg e]
      exact h.withdrawing j
  · rw [updEntry_seg_frame, h.queued]
    refine if_congr ?_ rfl rfl
    simp only [updEntry_slot_frame, Device.handle]
    constructor <;> rintro ⟨e1, e2, e3, e4⟩ <;>
      exact ⟨e1, e2, e3, by simpa only [home _ (live_of_queued e3)] using e4⟩
  · rw [updEntry_seg_frame, h.engine]
    simp only [updEntry_slot_frame, Device.handle]
    constructor <;> rintro ⟨e1, e2, e3, e4⟩ <;>
      exact ⟨e1, e2, e3, by simpa only [home _ (live_of_running e3)] using e4⟩

/-- Presence and miss count may move between the standing states, and the settings may change. -/
theorem WorkBase.updEntry_same (h : WorkBase held loose d) (i : TargetId) (f : Entry → Entry)
    (hr : (f (d.entry i)).refs = (d.entry i).refs) (hs : (f (d.entry i)).segment = (d.entry i).segment)
    (hv : (f (d.entry i)).presence ≠ .vacant) (hw : (f (d.entry i)).presence = .withdrawing → (d.entry i).presence = .withdrawing) :
    WorkBase held loose (d.updEntry i f) :=
  h.updEntry i f (by rw [hr]) (fun _ _ => rfl) (fun e => absurd e hv) (fun e => by rw [hr]; exact h.withdrawing i (hw e)) (Or.inl hs)

theorem owed_some_ne {i j : TargetId} (h : j ≠ i) : owed (some i) j = owed none j := by simp [owed, Ne.symm h]
@[simp] theorem owed_some_self (i : TargetId) : owed (some i) i = 1 := by simp [owed]
@[simp] theorem owed_none (i : TargetId) : owed none i = 0 := by simp [owed]

/-- An entry that nothing refers to may be replaced by one that nothing refers to. -/
theorem WorkBase.replaceEntry (h : WorkBase held loose d) {i : TargetId} (h0 : (d.entry i).refs = 0) {e : Entry} (he : e.refs = 0)
    (hp : e.presence ≠ .withdrawing) : WorkBase held loose (d.updEntry i fun _ => e) := by
  have hc := h.counted i
  exact h.updEntry i _ (by rw [he, h0]) (fun _ _ => rfl) (fun _ => he) (fun e => absurd e hp) (Or.inr (by omega))

/-- One reference more, on an entry that stands (01 R8). -/
theorem WorkBase.raiseRef (h : WorkBase none loose d) {i : TargetId} (hv : (d.entry i).presence ≠ .vacant) :
    WorkBase (some i) loose (raiseRef i d) :=
  h.updEntry i _ (by simp) (fun j hj => owed_some_ne hj) (fun e => absurd e hv) (fun _ => Nat.succ_ne_zero _) (Or.inl rfl)

/-- The release of a held reference (01 R8, R17). -/
theorem WorkBase.releaseRef {i : TargetId} (h : WorkBase (some i) loose d) : WorkBase none loose (releaseRef i d) := by
  have hc := h.counted i
  simp only [owed_some_self] at hc
  unfold Machine.releaseRef
  dsimp only
  split
  · next hp =>
    refine WorkBase.post ?_ _
    exact h.updEntry i _ (by simp [Entry.vacant]; omega) (fun j hj => (owed_some_ne hj).symm) (fun _ => rfl)
      (fun e => absurd e (by decide)) (Or.inr (by omega))
  · next hp =>
    refine h.updEntry i _ (by simp; omega) (fun j hj => (owed_some_ne hj).symm) (fun e => ?_) (fun e => ?_) (Or.inl rfl)
    · have := h.vacant i e
      omega
    · have : ¬ (d.entry i).refs ≤ 1 := fun hle => hp ⟨e, hle⟩
      dsimp only
      omega

/-! ## Slots -/

theorem references_updSlot (k : SlotId) (f : Slot → Slot) (i : TargetId) :
    references (d.updSlot k f) i + ((d.slot k).names i).toNat = references d i + ((f (d.slot k)).names i).toNat := by
  have hc : (List.finRange 32).countP (fun j => ((d.updSlot k f).slot j).names i) + ((d.slot k).names i).toNat =
      (List.finRange 32).countP (fun j => (d.slot j).names i) + ((f (d.slot k)).names i).toNat := by
    simpa only [updSlot_slot_same] using
      countP_finRange_update (p := fun j => (d.slot j).names i) (q := fun j => ((d.updSlot k f).slot j).names i) k
        (fun j hj => by simp [updSlot_slot, Ne.symm hj])
  have hp : ∀ bank j, (d.updSlot k f).poll bank j = d.poll bank j := fun _ _ => rfl
  simp only [references_eq, hp]
  omega

theorem hostHeld_updSlot (k : SlotId) (f : Slot → Slot) :
    hostHeld (d.updSlot k f) + (d.slot k).hosted.toNat = hostHeld d + (f (d.slot k)).hosted.toNat := by
  have hc := countP_finRange_update (p := fun j => (d.slot j).hosted) (q := fun j => ((d.updSlot k f).slot j).hosted) k
    (fun j hj => by simp [updSlot_slot, Ne.symm hj])
  simp only [updSlot_slot_same] at hc
  exact hc

/-- What the laws of the pool ask of one slot (02 R30, R31, R35). -/
structure Slot.Proper (x : Slot) : Prop where
  idleTimer : x.conv.assemblyTimer.isSome → x.state = .assembling
  stops : x.conv.stop.isSome → x.state = .running
  steps : x.state = .queued → x.conv.steps ≠ []

theorem WorkBase.proper (h : WorkBase held loose d) (k : SlotId) : (d.slot k).Proper := ⟨h.idleTimer k, h.stops k, h.steps k⟩

theorem handle_updSlot_of_ne {k j : SlotId} (f : Slot → Slot) (h : k ≠ j) : (d.updSlot k f).handle j = d.handle j := by
  simp [Device.handle, updSlot_slot, h]

theorem home_updSlot_of_ne {k j : SlotId} (f : Slot → Slot) (h : k ≠ j) : (d.updSlot k f).home j = d.home j := by
  simp only [Device.home, updSlot_slot, if_neg h]
  rfl

/-- The slot on its way may change when the references that its conversation gives up and takes are held, and the host's share allows it. -/
theorem WorkBase.updSlot {k : SlotId} (h : WorkBase held (some k) d) (f : Slot → Slot)
    (hn : ∀ i, owed held' i + ((f (d.slot k)).names i).toNat = owed held i + ((d.slot k).names i).toNat)
    (hp : (f (d.slot k)).Proper) (hh : (f (d.slot k)).hosted = true → (d.slot k).hosted = true ∨ Machine.hostHeld d < Config.hostSlots) :
    WorkBase held' (some k) (d.updSlot k f) := by
  have out : ∀ {h : Handle}, some k ≠ some h.slot → k ≠ h.slot := fun e e' => e (congrArg some e')
  have slot : ∀ {j}, k ≠ j → (d.updSlot k f).slot j = d.slot j := fun e => by rw [updSlot_slot, if_neg e]
  have every : ∀ Q : Slot → Prop, Q (f (d.slot k)) → (∀ j, Q (d.slot j)) → ∀ j, Q ((d.updSlot k f).slot j) := fun Q hk hj j => by
    by_cases e : k = j
    · subst e
      rwa [updSlot_slot_same]
    · rw [slot e]
      exact hj j
  refine ⟨fun i => ?_, h.vacant, h.withdrawing, fun seg c hd => ?_, fun seg hd => ?_, h.active, ?_, h.streak, ?_, ?_, ?_⟩
  · have h1 := h.counted i
    have h2 := references_updSlot (d := d) k f i
    have h3 := hn i
    rw [updSlot_entry_frame]
    omega
  · rw [updSlot_seg_frame, h.queued]
    refine if_congr ?_ rfl rfl
    constructor <;> rintro ⟨e, e2⟩ <;> refine ⟨e, ?_⟩ <;>
      simpa only [slot (out e), handle_updSlot_of_ne f (out e), home_updSlot_of_ne f (out e)] using e2
  · rw [updSlot_seg_frame, h.engine]
    constructor <;> rintro ⟨e, e2⟩ <;> refine ⟨e, ?_⟩ <;>
      simpa only [slot (out e), handle_updSlot_of_ne f (out e), home_updSlot_of_ne f (out e)] using e2
  · have h1 := hostHeld_updSlot (d := d) k f
    have h2 := h.hostHeld
    cases hx : (f (d.slot k)).hosted
    · simp only [hx, Bool.toNat_false] at h1
      omega
    · simp only [hx, Bool.toNat_true] at h1
      obtain hy | hy := hh hx
      · simp only [hy, Bool.toNat_true] at h1
        omega
      · omega
  · exact every (fun x => x.conv.assemblyTimer.isSome → x.state = .assembling) hp.idleTimer h.idleTimer
  · exact every (fun x => x.conv.stop.isSome → x.state = .running) hp.stops h.stops
  · exact every (fun x => x.state = .queued → x.conv.steps ≠ []) hp.steps h.steps

/-- A slot may change in what its lists, engine and references do not read. -/
theorem WorkBase.updSlot_same (h : WorkBase held loose d) (k : SlotId) (f : Slot → Slot) (hg : (f (d.slot k)).gen = (d.slot k).gen)
    (hs : (f (d.slot k)).state = (d.slot k).state) (ht : (f (d.slot k)).conv.target = (d.slot k).conv.target)
    (hc : (f (d.slot k)).conv.cls = (d.slot k).conv.cls) (ho : (f (d.slot k)).conv.origin = (d.slot k).conv.origin)
    (hp : (f (d.slot k)).Proper) : WorkBase held loose (d.updSlot k f) := by
  have gen : ∀ j, ((d.updSlot k f).slot j).gen = (d.slot j).gen := fun j => by
    rw [updSlot_slot]
    split
    · next e => exact e ▸ hg
    · rfl
  have state : ∀ j, ((d.updSlot k f).slot j).state = (d.slot j).state := fun j => by
    rw [updSlot_slot]
    split
    · next e => exact e ▸ hs
    · rfl
  have target : ∀ j, ((d.updSlot k f).slot j).conv.target = (d.slot j).conv.target := fun j => by
    rw [updSlot_slot]
    split
    · next e => exact e ▸ ht
    · rfl
  have cls : ∀ j, ((d.updSlot k f).slot j).conv.cls = (d.slot j).conv.cls := fun j => by
    rw [updSlot_slot]
    split
    · next e => exact e ▸ hc
    · rfl
  have origin : ∀ j, ((d.updSlot k f).slot j).conv.origin = (d.slot j).conv.origin := fun j => by
    rw [updSlot_slot]
    split
    · next e => exact e ▸ ho
    · rfl
  have proper : ∀ j, ((d.updSlot k f).slot j).Proper := fun j => by
    rw [updSlot_slot]
    split
    · next e => exact e ▸ hp
    · exact h.proper j
  have handle : ∀ j, (d.updSlot k f).handle j = d.handle j := fun j => by rw [Device.handle, gen]; rfl
  have home : ∀ j, (d.updSlot k f).home j = d.home j := fun j => by rw [Device.home, target]; rfl
  refine ⟨fun i => ?_, h.vacant, h.withdrawing, fun seg c hd => ?_, fun seg hd => ?_, h.active, ?_, h.streak,
    fun j => (proper j).idleTimer, fun j => (proper j).stops, fun j => (proper j).steps⟩
  · have hn : ∀ j, ((d.updSlot k f).slot j).names i = (d.slot j).names i := fun j => by
      simp only [Slot.names, Slot.live, state, target]
    have hr : references (d.updSlot k f) i = references d i := by
      simp only [references_eq, hn]
      rfl
    rw [hr]
    exact h.counted i
  · rw [updSlot_seg_frame, h.queued]
    simp only [handle, home, state, cls]
  · rw [updSlot_seg_frame, h.engine]
    simp only [handle, home, state]
  · have : Machine.hostHeld (d.updSlot k f) = Machine.hostHeld d := by simp only [Machine.hostHeld, state, origin]
    rw [this]
    exact h.hostHeld

/-! ## Segments -/

/-- A segment may change when its lists and its engine hold the slots that stand there afterwards; a slot goes on its way, or arrives, from or
at its own segment alone. -/
theorem WorkBase.updSeg (h : WorkBase held loose d) (g : SegId) (f : Segment → Segment)
    (hl : ∀ k, loose ≠ loose' → (loose = some k ∨ loose' = some k) → d.home k = g)
    (hq : ∀ c hd, ((f (d.seg g)).waiting c).count hd =
      if loose' ≠ some hd.slot ∧ hd = d.handle hd.slot ∧ (d.slot hd.slot).state = .queued ∧ d.home hd.slot = g ∧
        (d.slot hd.slot).conv.cls = c then 1 else 0)
    (he : ∀ hd, (f (d.seg g)).work.runs = some hd ↔
      loose' ≠ some hd.slot ∧ hd = d.handle hd.slot ∧ (d.slot hd.slot).state = .running ∧ d.home hd.slot = g)
    (ha : (f (d.seg g)).state = .active ↔ (f (d.seg g)).work ≠ .nothing) (hs : (f (d.seg g)).streak ≤ Config.streakLimit) :
    WorkBase held loose' (d.updSeg g f) := by
  have away : ∀ (hd : Handle) j, g ≠ j → d.home hd.slot = j → (loose ≠ some hd.slot ↔ loose' ≠ some hd.slot) := by
    intro hd j hj hh
    by_cases e : loose = loose'
    · rw [e]
    · have h1 : loose ≠ some hd.slot := fun e' => hj ((hl _ e (Or.inl e')).symm.trans hh)
      have h2 : loose' ≠ some hd.slot := fun e' => hj ((hl _ e (Or.inr e')).symm.trans hh)
      simp [h1, h2]
  refine ⟨h.counted, h.vacant, h.withdrawing, fun j c hd => ?_, fun j hd => ?_, fun j => ?_, h.hostHeld, fun j => ?_, h.idleTimer,
    h.stops, h.steps⟩ <;> rw [updSeg_seg] <;> by_cases e : g = j
  · subst e
    rw [if_pos rfl]
    exact hq c hd
  · rw [if_neg e, h.queued]
    refine if_congr ⟨fun x => ⟨(away hd j e x.2.2.2.1).mp x.1, x.2⟩, fun x => ⟨(away hd j e x.2.2.2.1).mpr x.1, x.2⟩⟩ rfl rfl
  · subst e
    rw [if_pos rfl]
    exact he hd
  · rw [if_neg e, h.engine]
    exact ⟨fun x => ⟨(away hd j e x.2.2.2).mp x.1, x.2⟩, fun x => ⟨(away hd j e x.2.2.2).mpr x.1, x.2⟩⟩
  · subst e
    rw [if_pos rfl]
    exact ha
  · rw [if_neg e]
    exact h.active j
  · subst e
    rw [if_pos rfl]
    exact hs
  · rw [if_neg e]
    exact h.streak j

/-- A change of a segment that its lists, its streak and its conversation do not see. -/
structure SegSame (g g' : Segment) : Prop where
  waiting : ∀ c, g'.waiting c = g.waiting c
  runs : g'.work.runs = g.work.runs
  active : (g.state = .active ↔ g.work ≠ .nothing) → (g'.state = .active ↔ g'.work ≠ .nothing)
  streak : g'.streak ≤ g.streak

theorem WorkBase.updSeg_same (h : WorkBase held loose d) (g : SegId) (f : Segment → Segment) (hf : SegSame (d.seg g) (f (d.seg g))) :
    WorkBase held loose (d.updSeg g f) := by
  refine h.updSeg g f (fun _ e => absurd rfl e) (fun c hd => ?_) (fun hd => ?_) (hf.active (h.active g)) (hf.streak.trans (h.streak g))
  · rw [hf.waiting]
    exact h.queued g c hd
  · rw [hf.runs]
    exact h.engine g hd

/-- Lists, engine work, engine state and streak are as they were. -/
theorem SegSame.of_eq {g g' : Segment} (hu : g'.urgent = g.urgent) (hn : g'.normal = g.normal) (hw : g'.work = g.work)
    (hst : g'.state = g.state) (hs : g'.streak = g.streak) : SegSame g g' :=
  ⟨fun c => by cases c; exacts [hn, hu], by rw [hw], by rw [hw, hst]; exact id, by rw [hs]⟩

end Sys2Proof.Machine
end

section
/-! PROOFS. The shared actions keep the base of the work law: lists, engines, the end of a conversation, the actions of an engine for its
conversation. -/

namespace Sys2Proof.Machine

variable {held held' : Option TargetId} {loose loose' : Option SlotId} {d : Device}

/-! ## Lists and engines -/

theorem slot_eq_of_handle {k : SlotId} {hd : Handle} (h : hd = d.handle k) : hd.slot = k := by rw [h]; rfl

/-- A QUEUED conversation goes on its way when its handle leaves its list (03 R46, R49). -/
theorem WorkBase.unlist (h : WorkBase held none d) {k : SlotId} (hq : (d.slot k).state = .queued) (f : Segment → Segment)
    (hc : ∀ c hd, ((f (d.seg (d.home k))).waiting c).count hd =
      if hd = d.handle k then 0 else ((d.seg (d.home k)).waiting c).count hd)
    (hr : (f (d.seg (d.home k))).work = (d.seg (d.home k)).work) (hst : (f (d.seg (d.home k))).state = (d.seg (d.home k)).state)
    (hs : (f (d.seg (d.home k))).streak ≤ Config.streakLimit) : WorkBase held (some k) (d.updSeg (d.home k) f) := by
  refine h.updSeg _ f (fun j _ e => ?_) (fun c hd => ?_) (fun hd => ?_) (by rw [hr, hst]; exact h.active _) hs
  · obtain rfl : k = j := by simpa using e
    rfl
  · rw [hc, h.queued]
    by_cases e : hd = d.handle k
    · rw [if_pos e, if_neg]
      rintro ⟨e1, -⟩
      exact e1 (congrArg some (slot_eq_of_handle e).symm)
    · rw [if_neg e]
      refine if_congr ⟨fun x => ⟨fun e1 => e ?_, x.2⟩, fun x => ⟨by simp, x.2⟩⟩ rfl rfl
      rw [Option.some.inj e1]
      exact x.2.1
  · rw [hr, h.engine]
    refine ⟨fun x => ⟨fun e1 => ?_, x.2⟩, fun x => ⟨by simp, x.2⟩⟩
    rw [← Option.some.inj e1, hq] at x
    exact absurd x.2.2.1 (by decide)

theorem dequeue_waiting (hd : Handle) (c : Class) (g : Segment) : (g.dequeue hd).waiting c = (g.waiting c).erase hd := by cases c <;> rfl

theorem dequeue_streak (hd : Handle) (g : Segment) : (g.dequeue hd).streak ≤ g.streak := by
  show (if _ then _ else _) ≤ _
  split
  · exact Nat.zero_le _
  · exact Nat.le_refl _

/-- A handle stands at most once in a list (03 R45). -/
theorem WorkBase.count_le_one (h : WorkBase held loose d) (g : SegId) (c : Class) (hd : Handle) : ((d.seg g).waiting c).count hd ≤ 1 := by
  rw [h.queued]
  split <;> omega

theorem count_erase_of_le_one {l : List Handle} {a : Handle} (h : l.count a ≤ 1) (b : Handle) :
    (l.erase a).count b = if b = a then 0 else l.count b := by
  rw [List.count_erase]
  by_cases e : b = a
  · subst e
    simp
    omega
  · simp [e, Ne.symm e]

theorem WorkBase.leaveQueue (h : WorkBase held none d) {k : SlotId} (hq : (d.slot k).state = .queued) :
    WorkBase held (some k) (leaveQueue k d) :=
  h.unlist hq _ (fun c hd => by rw [dequeue_waiting, count_erase_of_le_one (h.count_le_one _ _ _)]) rfl rfl
    ((dequeue_streak _ _).trans (h.streak _))

theorem enqueue_waiting (c c' : Class) (hd : Handle) (g : Segment) :
    (g.enqueue c hd).waiting c' = if c' = c then g.waiting c' ++ [hd] else g.waiting c' := by
  cases c <;> cases c' <;> rfl

theorem enqueue_rest (c : Class) (hd : Handle) (g : Segment) :
    (g.enqueue c hd).work = g.work ∧ (g.enqueue c hd).state = g.state ∧ (g.enqueue c hd).streak = g.streak := by
  cases c <;> exact ⟨rfl, rfl, rfl⟩

/-- A QUEUED conversation on its way arrives in its list (03 R45). -/
theorem WorkBase.enqueue {k : SlotId} (h : WorkBase held (some k) d) (hq : (d.slot k).state = .queued) :
    WorkBase held none (d.updSeg (d.home k) (·.enqueue (d.slot k).conv.cls (d.handle k))) := by
  obtain ⟨hw, hst, hs⟩ := enqueue_rest (d.slot k).conv.cls (d.handle k) (d.seg (d.home k))
  refine h.updSeg _ _ (fun j _ e => ?_) (fun c hd => ?_) (fun hd => ?_) (by rw [hw, hst]; exact h.active _) (by rw [hs]; exact h.streak _)
  · obtain rfl : k = j := by simpa using e
    rfl
  · rw [enqueue_waiting]
    have hcount := h.queued (d.home k) c hd
    by_cases e : hd = d.handle k
    · subst e
      rw [if_neg (fun x => x.1 rfl)] at hcount
      by_cases hc : c = (d.slot k).conv.cls
      · rw [if_pos hc, if_pos ⟨by simp, rfl, hq, rfl, hc.symm⟩, List.count_append, hcount]
        simp
      · rw [if_neg hc, if_neg (fun x => hc x.2.2.2.2.symm), hcount]
    · have hcount' : ∀ l : List Handle, (l ++ [hd]).count hd = l.count hd + 1 := fun l => by simp
      have hother : (if c = (d.slot k).conv.cls then (d.seg (d.home k)).waiting c ++ [d.handle k] else (d.seg (d.home k)).waiting c).count hd =
          ((d.seg (d.home k)).waiting c).count hd := by
        split
        · simp [List.count_append, Ne.symm e]
        · rfl
      rw [hother, hcount]
      refine if_congr ⟨fun x => ⟨by simp, x.2⟩, fun x => ⟨fun e1 => e ?_, x.2⟩⟩ rfl rfl
      rw [Option.some.inj e1]
      exact x.2.1
  · rw [hw, h.engine]
    refine ⟨fun x => ⟨by simp, x.2⟩, fun x => ⟨fun e1 => ?_, x.2⟩⟩
    rw [← Option.some.inj e1, hq] at x
    exact absurd x.2.2.1 (by decide)

/-- The conversation of an engine goes on its way when the engine lets go of it (05 R98). -/
theorem WorkBase.disengage (h : WorkBase held none d) {g : SegId} {hd : Handle} (hr : (d.seg g).work.runs = some hd)
    (f : Segment → Segment) (hw : ∀ c, (f (d.seg g)).waiting c = (d.seg g).waiting c) (hn : (f (d.seg g)).work = .nothing)
    (hst : (f (d.seg g)).state ≠ .active) (hs : (f (d.seg g)).streak = (d.seg g).streak) :
    WorkBase held (some hd.slot) (d.updSeg g f) := by
  obtain ⟨-, hh, hrun, hhome⟩ := (h.engine g hd).mp hr
  refine h.updSeg g f (fun j _ e => ?_) (fun c h' => ?_) (fun h' => ?_) (by simp [hn, hst]) (by rw [hs]; exact h.streak _)
  · obtain rfl : hd.slot = j := by simpa using e
    exact hhome
  · rw [hw, h.queued]
    refine if_congr ⟨fun x => ⟨fun e1 => ?_, x.2⟩, fun x => ⟨by simp, x.2⟩⟩ rfl rfl
    rw [← Option.some.inj e1, hrun] at x
    exact absurd x.2.2.1 (by decide)
  · rw [hn]
    refine ⟨fun e => by simp [Work.runs] at e, fun ⟨e1, e2, e3, e4⟩ => absurd ?_ e1⟩
    have : (d.seg g).work.runs = some h' := (h.engine g h').mpr ⟨by simp, e2, e3, e4⟩
    rw [hr] at this
    rw [Option.some.inj this]

/-- A RUNNING conversation on its way is taken by the free engine of its segment (03 R50). -/
theorem WorkBase.engage {k : SlotId} (h : WorkBase held (some k) d) (hrun : (d.slot k).state = .running)
    (hfree : (d.seg (d.home k)).work = .nothing) (f : Segment → Segment)
    (hw : ∀ c, (f (d.seg (d.home k))).waiting c = (d.seg (d.home k)).waiting c)
    (hr : (f (d.seg (d.home k))).work.runs = some (d.handle k)) (hst : (f (d.seg (d.home k))).state = .active)
    (hs : (f (d.seg (d.home k))).streak = (d.seg (d.home k)).streak) : WorkBase held none (d.updSeg (d.home k) f) := by
  have hne : (f (d.seg (d.home k))).work ≠ .nothing := fun e => by simp [e, Work.runs] at hr
  refine h.updSeg _ f (fun j _ e => ?_) (fun c h' => ?_) (fun h' => ?_) (by simp [hne, hst]) (by rw [hs]; exact h.streak _)
  · obtain rfl : k = j := by simpa using e
    rfl
  · rw [hw, h.queued]
    refine if_congr ⟨fun x => ⟨by simp, x.2⟩, fun x => ⟨fun e1 => ?_, x.2⟩⟩ rfl rfl
    rw [← Option.some.inj e1, hrun] at x
    exact absurd x.2.2.1 (by decide)
  · rw [hr]
    constructor
    · intro e
      obtain rfl := Option.some.inj e
      exact ⟨by simp, rfl, hrun, rfl⟩
    · rintro ⟨-, e2, e3, e4⟩
      by_cases e : k = h'.slot
      · rw [e2, e]
      · have : (d.seg (d.home k)).work.runs = some h' := (h.engine _ h').mpr ⟨fun e' => e (Option.some.inj e'), e2, e3, e4⟩
        rw [hfree] at this
        simp [Work.runs] at this

/-! ## The end of a conversation (02 R37) -/

theorem owed_index (t : Target) (i : TargetId) : owed t.index i = (decide (t = .directory i)).toNat := by
  cases t <;> simp [Target.index, owed]

theorem names_of_live {x : Slot} (h : x.live = true) (i : TargetId) : x.names i = decide (x.conv.target = .directory i) := by
  simp [Slot.names, h]

theorem names_of_dead {x : Slot} (h : x.live = false) (i : TargetId) : x.names i = false := by simp [Slot.names, h]

theorem WorkBase.releaseTarget {t : Target} (h : WorkBase t.index loose d) : WorkBase none loose (releaseTarget t d) := by
  cases t
  · exact h.releaseRef
  · exact h

/-- A slot on its way that holds no conversation in progress may be freed. -/
theorem WorkBase.freeSlot {k : SlotId} (h : WorkBase held (some k) d) (hd : (d.slot k).live = false) :
    WorkBase held (some k) (freeSlot k d) :=
  h.updSlot _ (fun i => by rw [names_of_dead hd, names_of_dead rfl]) ⟨fun e => by simp [Conv.blank] at e, fun e => by simp [Conv.blank] at e,
    fun e => by simp at e⟩ fun e => by simp [Slot.hosted] at e

theorem WorkBase.applySuccess (h : WorkBase held loose d) {bank : Bank} {k : PollId} {e e' : PollEntry} (he : d.poll bank k = some e)
    (hc : e'.config.target = e.config.target) (v : List Byte) : WorkBase held loose (applySuccess bank k e' v d) := by
  unfold Machine.applySuccess
  dsimp only
  split
  · split
    · exact (h.post _).setPoll_same (e := e) he hc
    · exact h.setPoll_same he hc
  · exact (h.post _).setPoll_same (e := e) he hc
  · exact h.setPoll_same he hc

theorem WorkBase.applyFailure (h : WorkBase held loose d) {bank : Bank} {k : PollId} {e e' : PollEntry} (he : d.poll bank k = some e)
    (hc : e'.config.target = e.config.target) (o : ConvOutcome) : WorkBase held loose (applyFailure bank k e' o d) := by
  unfold Machine.applyFailure
  dsimp only
  split
  · exact h.setPoll_same he hc
  · exact (h.post _).setPoll_same (e := e) he hc

theorem WorkBase.takePollResult (h : WorkBase held loose d) (bank : Bank) (k : PollId) (hd : Handle) (r : ConvResult) :
    WorkBase held loose (takePollResult bank k hd r d) := by
  unfold Machine.takePollResult
  split
  · exact h
  · next e he =>
    split
    · split
      · dsimp only
        split
        · exact h.applySuccess he (by rfl) _
        · exact h.applyFailure he (by rfl) _
      · exact h.setPoll_same he rfl
    · exact h

/-- A conversation on its way ends: its reference goes, and its slot is DONE or FREE (02 R37 to R40). -/
theorem WorkBase.finish_loose {k : SlotId} (h : WorkBase none (some k) d) (hl : (d.slot k).live = true) (r : ConvResult) :
    WorkBase none (some k) (finish k r d) := by
  have h1 : WorkBase (d.slot k).conv.target.index (some k) (d.updSlot k fun s => { s with
      state := .done
      conv := { s.conv with result := some r, stop := none, assemblyTimer := none, deadlineTimer := none } }) := by
    refine h.updSlot _ (fun i => ?_) ⟨fun e => by simp at e, fun e => by simp at e, fun e => by simp at e⟩ fun e => Or.inl ?_
    · rw [names_of_dead rfl, names_of_live hl, owed_index]
      simp
    · have ho : (d.slot k).conv.origin = .host := by simpa [Slot.hosted] using e
      have hs : (d.slot k).state ≠ .free := fun e => by simp [Slot.live, e] at hl
      simp [Slot.hosted, ho, hs]
  have h2 := h1.releaseTarget
  have hs : ∀ t : Device, SlotsKept (Machine.releaseTarget (d.slot k).conv.target (d.updSlot k fun s => { s with
      state := .done
      conv := { s.conv with result := some r, stop := none, assemblyTimer := none, deadlineTimer := none } })) t →
      (t.slot k).live = false := fun t ht => by
    rw [ht.slot, (releaseTarget_slotsKept ..).slot, updSlot_slot_same]
    rfl
  unfold finish
  dsimp only
  split
  · exact h2.post _
  · split
    · exact h2.freeSlot (hs _ (.refl _))
    · exact (h2.freeSlot (hs _ (.refl _))).post _
  · exact h2
  · exact (h2.takePollResult _ _ _ _).freeSlot (hs _ (takePollResult_slotsKept ..))

/-- The slot of a conversation that has ended is DONE or FREE. -/
theorem finish_state (k : SlotId) (r : ConvResult) (d : Device) :
    ((finish k r d).slot k).state = .done ∨ ((finish k r d).slot k).state = .free := by
  by_cases h : (d.slot k).conv.origin = .host ∧ (d.slot k).conv.mode ≠ some .fire
  · exact Or.inl (by rw [finish_slot_held k r d h.1 h.2])
  · refine Or.inr ?_
    rw [finish_slot_freed k r d]
    by_cases ho : (d.slot k).conv.origin = .host
    · exact Or.inr (Classical.byContradiction fun e => h ⟨ho, e⟩)
    · exact Or.inl ho

theorem WorkBase.finish {k : SlotId} (h : WorkBase none (some k) d) (hl : (d.slot k).live = true) (r : ConvResult) :
    WorkBase none none (finish k r d) := by
  obtain e | e := finish_state k r d <;> exact (WorkBase.loose_iff (by simp [e]) (by simp [e])).mp (h.finish_loose hl r)

/-- A QUEUED conversation ends where it waits (03 R46). -/
theorem WorkBase.endQueued (h : WorkBase none none d) {k : SlotId} (hq : (d.slot k).state = .queued) (o : ConvOutcome) :
    WorkBase none none (endQueued k o d) := (h.leaveQueue hq).finish (live_of_queued hq) _

/-- An ASSEMBLING conversation ends (01 R17). -/
theorem WorkBase.finish_assembling (h : WorkBase none none d) {k : SlotId} (ha : (d.slot k).state = .assembling) (r : ConvResult) :
    WorkBase none none (Machine.finish k r d) :=
  ((WorkBase.loose_iff (by simp [ha]) (by simp [ha])).mpr h).finish (live_of_assembling ha) r

/-! ### The end does not look at the segments -/

theorem releaseTarget_updSeg (t : Target) (g : SegId) (f : Segment → Segment) (d : Device) :
    releaseTarget t (d.updSeg g f) = (releaseTarget t d).updSeg g f := by
  cases t with
  | raw => rfl
  | directory i =>
    simp only [releaseTarget, releaseRef, updSeg_entry_frame, apply_ite (Device.updSeg g f)]
    rfl

theorem takePollResult_updSeg (bank : Bank) (k : PollId) (hd : Handle) (r : ConvResult) (g : SegId) (f : Segment → Segment) (d : Device) :
    takePollResult bank k hd r (d.updSeg g f) = (takePollResult bank k hd r d).updSeg g f := by
  have hp : (d.updSeg g f).poll bank k = d.poll bank k := rfl
  have hsuccess : ∀ e v, applySuccess bank k e v (d.updSeg g f) = (applySuccess bank k e v d).updSeg g f := fun e v => by
    simp only [applySuccess, updSeg_entry_frame]
    split
    · split <;> rfl
    · rfl
    · rfl
  have hfailure : ∀ e o, applyFailure bank k e o (d.updSeg g f) = (applyFailure bank k e o d).updSeg g f := fun e o => by
    simp only [applyFailure]
    split <;> rfl
  simp only [takePollResult, hp, updSeg_schedule, hsuccess, hfailure]
  split
  · rfl
  · split
    · split
      · split <;> rfl
      · rfl
    · rfl

theorem finish_updSeg (k : SlotId) (r : ConvResult) (g : SegId) (f : Segment → Segment) (d : Device) :
    finish k r (d.updSeg g f) = (finish k r d).updSeg g f := by
  have hslot : ∀ (d : Device) (u : Slot → Slot), (d.updSeg g f).updSlot k u = (d.updSlot k u).updSeg g f := fun _ _ => rfl
  have hhandle : ∀ d : Device, (d.updSeg g f).handle k = d.handle k := fun _ => rfl
  have hfree : ∀ d : Device, freeSlot k (d.updSeg g f) = (freeSlot k d).updSeg g f := fun _ => rfl
  simp only [finish, updSeg_slot_frame, hhandle, hslot, releaseTarget_updSeg, takePollResult_updSeg, hfree]
  split
  · rfl
  · split <;> rfl
  · rfl
  · rfl

theorem finish_seg (k : SlotId) (r : ConvResult) (d : Device) (g : SegId) : (finish k r d).seg g = d.seg g :=
  (finish_oneSlot k r d).kept.seg g

/-! ## The actions of an engine for its conversation (05) -/

/-- What an action of an engine for its conversation does: it keeps the base, the other segments, and who owns the bus. -/
structure EngineMove (g : SegId) (hd : Handle) (d t : Device) : Prop where
  base : (d.seg g).work.runs = some hd → WorkBase none none d → WorkBase none none t
  other : ∀ j, j ≠ g → t.seg j = d.seg j
  owner : (t.seg g).owner = (d.seg g).owner

theorem updSeg_seg_other (d : Device) {g j : SegId} (f : Segment → Segment) (h : j ≠ g) : (d.updSeg g f).seg j = d.seg j := by
  rw [updSeg_seg, if_neg (Ne.symm h)]

theorem endConversation_move (g : SegId) (hd : Handle) (ctx : Context) (o : ConvOutcome) (n : Option Nat) (d : Device) :
    EngineMove g hd d (endConversation g hd ctx o n d) where
  base hr h := by
    obtain ⟨-, -, hrun, -⟩ := (h.engine g hd).mp hr
    unfold endConversation
    rw [← finish_updSeg]
    exact (h.disengage hr _ (fun c => by cases c <;> rfl) rfl (by simp) rfl).finish (live_of_running hrun) _
  other j hj := by
    unfold endConversation
    rw [updSeg_seg_other _ _ hj, finish_seg]
  owner := by
    unfold endConversation
    rw [updSeg_seg_same, finish_seg]

/-- A work of the engine for the same conversation. -/
theorem WorkBase.setWork (h : WorkBase held loose d) {g : SegId} {hd : Handle} (hr : (d.seg g).work.runs = some hd) (f : Segment → Segment)
    (hq : ∀ c, (f (d.seg g)).waiting c = (d.seg g).waiting c) (hw : (f (d.seg g)).work.runs = some hd)
    (hst : (f (d.seg g)).state = (d.seg g).state) (hs : (f (d.seg g)).streak = (d.seg g).streak) : WorkBase held loose (d.updSeg g f) := by
  have hne : ∀ {w : Work}, w.runs = some hd → w ≠ .nothing := fun e1 e2 => by simp [e2, Work.runs] at e1
  refine h.updSeg_same g f ⟨hq, hw.trans hr.symm, fun ha => ?_, hs.le⟩
  rw [hst, ha]
  simp [hne hr, hne hw]

theorem setContext_move (g : SegId) (hd : Handle) (ctx : Context) (d : Device) : EngineMove g hd d (setContext g hd ctx d) where
  base hr h := h.setWork hr _ (fun c => by cases c <;> rfl) rfl rfl rfl
  other j hj := updSeg_seg_other _ _ hj
  owner := by unfold setContext; rw [updSeg_seg_same]

theorem setTransaction_move (g : SegId) (hd : Handle) (ctx : Context) (r : Bool) (p : BusPos) (d : Device) :
    EngineMove g hd d (setTransaction g hd ctx r p d) := setContext_move ..

/-- A transaction that a repeated START begins: no free-time count runs (04 R68). -/
theorem restart_move (g : SegId) (hd : Handle) (ctx : Context) (r : Bool) (p : BusPos) (d : Device) :
    EngineMove g hd d ((setTransaction g hd ctx r p d).updSeg g fun x => { x with freeCount := false }) := by
  have h := setTransaction_move g hd ctx r p d
  refine ⟨fun hr hb => (h.base hr hb).updSeg_same g _ (.of_eq rfl rfl rfl rfl rfl), fun j hj => ?_, ?_⟩
  · rw [updSeg_seg_other _ _ hj, h.other j hj]
  · rw [updSeg_seg_same]
    exact h.owner

theorem endStopped_move (g : SegId) (hd : Handle) (ctx : Context) (c : StopCause) (d : Device) :
    EngineMove g hd d (endStopped g hd ctx c d) := endConversation_move ..

theorem endFailed_move (g : SegId) (hd : Handle) (ctx : Context) (o : ConvOutcome) (d : Device) :
    EngineMove g hd d (endFailed g hd ctx o d) := endConversation_move ..

theorem enterWaitFree_move (g : SegId) (hd : Handle) (ctx : Context) (d : Device) : EngineMove g hd d (enterWaitFree g hd ctx d) := by
  unfold enterWaitFree
  split
  · exact endStopped_move ..
  · exact setTransaction_move ..

theorem enterStep_move (g : SegId) (hd : Handle) (ctx : Context) (d : Device) : EngineMove g hd d (enterStep g hd ctx d) := by
  unfold enterStep
  split
  · exact endConversation_move ..
  · split
    · exact endStopped_move ..
    · exact setContext_move ..
  · exact enterWaitFree_move ..

theorem afterSuccess_move (g : SegId) (hd : Handle) (ctx : Context) (r : Bool) (st : Step) (bs : List Byte) (d : Device) :
    EngineMove g hd d (afterSuccess g hd ctx r st bs d) := by
  unfold afterSuccess
  split
  · exact restart_move ..
  · split
    · dsimp only
      split
      · exact enterStep_move ..
      · split
        · exact endFailed_move ..
        · split
          · exact endStopped_move ..
          · exact setContext_move ..
    · dsimp only
      split
      · exact restart_move ..
      · exact enterStep_move ..

theorem afterRetryable_move (g : SegId) (hd : Handle) (ctx : Context) (o : ConvOutcome) (d : Device) :
    EngineMove g hd d (afterRetryable g hd ctx o d) := by
  unfold afterRetryable
  dsimp only
  split
  · exact setContext_move ..
  · exact endFailed_move ..

theorem afterArbLost_move (g : SegId) (hd : Handle) (ctx : Context) (d : Device) : EngineMove g hd d (afterArbLost g hd ctx d) := by
  unfold afterArbLost
  dsimp only
  split
  · exact endStopped_move ..
  · split
    · exact setTransaction_move ..
    · exact endFailed_move ..

theorem classify_move (g : SegId) (hd : Handle) (ctx : Context) (r : Bool) (st : Step) (o : TxnOutcome) (bs : List Byte) (d : Device) :
    EngineMove g hd d (classify g hd ctx r st o bs d) := by
  unfold classify
  split
  · exact afterSuccess_move ..
  · split
    · exact afterSuccess_move ..
    · exact endFailed_move ..
  · exact afterRetryable_move ..
  · exact afterRetryable_move ..
  · exact endFailed_move ..
  · exact afterArbLost_move ..
  · exact endFailed_move ..
  · exact endFailed_move ..

/-! ## Events of the address and of the bus -/

theorem WorkBase.ackEvent (h : WorkBase held loose d) (i : TargetId) : WorkBase held loose (ackEvent i d) := by
  have key : (d.entry i).presence ≠ .withdrawing → WorkBase held loose (d.updEntry i fun e => { e with presence := .present, misses := 0 }) :=
    fun _ => h.updEntry_same i _ rfl rfl (fun e => by simp at e) fun e => by simp at e
  unfold Machine.ackEvent
  dsimp only
  split <;> rename_i hp
  · exact (key (by simp [hp])).post _
  · exact (key (by simp [hp])).post _
  · exact key (by simp [hp])
  · exact key (by simp [hp])
  · exact h
  · exact h

theorem WorkBase.nakEvent (h : WorkBase held loose d) (i : TargetId) : WorkBase held loose (nakEvent i d) := by
  unfold Machine.nakEvent
  dsimp only
  have missing : ∀ n : Nat, WorkBase held loose (d.updEntry i fun e => { e with presence := .missing, misses := n }) := fun n =>
    h.updEntry_same i _ rfl rfl (fun e => by simp at e) fun e => by simp at e
  have counted : (d.entry i).presence ≠ .vacant → ∀ n : Nat, WorkBase held loose (d.updEntry i fun e =>
      { e with misses := n, presence := if e.presence = .present then .suspect else e.presence }) := fun hv n =>
    h.updEntry_same i _ rfl rfl (by dsimp only; split; exacts [by decide, hv]) (by dsimp only; split; exacts [fun e => by simp at e, id])
  split <;> rename_i hp
  · split
    · exact (missing _).post _
    · exact counted (by simp [hp]) _
  · split
    · exact (missing _).post _
    · exact counted (by simp [hp]) _
  · split
    · exact (missing _).post _
    · exact counted (by simp [hp]) _
  · exact h.updEntry_same i _ rfl rfl (by simp [hp]) fun e => by simp [hp] at e
  · exact h
  · exact h

theorem WorkBase.addressEvent (h : WorkBase held loose d) (t : Target) (s : Option Bool) : WorkBase held loose (addressEvent t s d) := by
  unfold Machine.addressEvent
  split
  · exact h.ackEvent _
  · exact h.nakEvent _
  · exact h

theorem addressEvent_seg (t : Target) (s : Option Bool) (d : Device) (g : SegId) : (addressEvent t s d).seg g = d.seg g :=
  (addressEvent_slotsKept t s d).seg g

end Sys2Proof.Machine
end

section
/-! PROOFS. The work law whole: a ready engine has nothing to offer after an event, because the event leaves no segment readier than it was, or
leaves the bus taken, or makes its selection (03 R47). -/

namespace Sys2Proof.Machine

variable {held : Option TargetId} {loose : Option SlotId} {d t : Device}

/-! ## From the base to the law -/

theorem WorkLaw.base (h : WorkLaw d) : WorkBase none none d := ((workLaw_iff d).mp h).1

/-- A segment is no readier with something to offer than it was before. -/
def NotReadier (g g' : Segment) : Prop := g'.ready = true → g'.offers = true → g.ready = true ∧ g.offers = true

theorem NotReadier.refl (g : Segment) : NotReadier g g := fun h k => ⟨h, k⟩

theorem NotReadier.of_not_ready {g g' : Segment} (h : g'.ready = false) : NotReadier g g' := fun e => by simp [h] at e

theorem ready_iff {g : Segment} : g.ready = true ↔ g.state = .idle ∧ g.held = false ∧ g.owner = .free := by
  simp [Segment.ready, and_assoc]

theorem not_ready_of_taken {g : Segment} (h : g.owner = .taken) : g.ready = false := by simp [Segment.ready, h]

theorem not_ready_of_state {g : Segment} (h : g.state ≠ .idle) : g.ready = false := by simp [Segment.ready, h]

theorem offers_iff {g : Segment} : g.offers = true ↔ g.sweep = .pending ∨ g.urgent ≠ [] ∨ g.normal ≠ [] := by
  simp [Segment.offers, or_assoc]

theorem offers_eq_false {g : Segment} : g.offers = false ↔ g.sweep ≠ .pending ∧ g.urgent = [] ∧ g.normal = [] := by
  simp [Segment.offers, and_assoc]

theorem WorkLaw.of_segs (h : WorkLaw d) (hb : WorkBase none none t) (hs : ∀ g, NotReadier (d.seg g) (t.seg g)) : WorkLaw t := by
  refine (workLaw_iff t).mpr ⟨hb, fun g hr => ?_⟩
  cases ho : (t.seg g).offers
  · rfl
  · obtain ⟨hr', ho'⟩ := hs g hr ho
    rw [h.served g hr'] at ho'
    exact absurd ho' (by decide)

theorem WorkLaw.of_same_segs (h : WorkLaw d) (hb : WorkBase none none t) (hs : ∀ g, t.seg g = d.seg g) : WorkLaw t :=
  h.of_segs hb fun g => by rw [hs g]; exact .refl _

/-- One segment has changed. -/
theorem WorkLaw.of_seg (h : WorkLaw d) (hb : WorkBase none none t) {g : SegId} (other : ∀ j, j ≠ g → t.seg j = d.seg j)
    (hg : NotReadier (d.seg g) (t.seg g)) : WorkLaw t :=
  h.of_segs hb fun j => by
    by_cases e : j = g
    · exact e ▸ hg
    · rw [other j e]
      exact .refl _

theorem WorkLaw.of_parts (h : WorkLaw d) (entry : ∀ i, t.entry i = d.entry i) (slot : ∀ k, t.slot k = d.slot k)
    (seg : ∀ g, t.seg g = d.seg g) (poll : ∀ bank k i, pollNames (t.poll bank k) i = pollNames (d.poll bank k) i) : WorkLaw t :=
  h.of_same_segs (h.base.of_parts entry slot seg poll) seg

theorem WorkLaw.post (h : WorkLaw d) (b : ReportBody) : WorkLaw (post b d) := h.of_same_segs (h.base.post b) fun _ => rfl

/-- A segment changes in what neither its queue nor its engine's readiness reads, or the bus becomes taken. -/
theorem WorkLaw.updSeg (h : WorkLaw d) (g : SegId) (f : Segment → Segment) (hf : SegSame (d.seg g) (f (d.seg g)))
    (hr : NotReadier (d.seg g) (f (d.seg g))) : WorkLaw (d.updSeg g f) :=
  h.of_seg (h.base.updSeg_same g f hf) (fun _ hj => updSeg_seg_other d f hj) (by rw [updSeg_seg_same]; exact hr)

/-! ## Selection (03 R47 to R50) -/

theorem choose_eq_none {g : Segment} (h : g.choose = none) : g.urgent = [] ∧ g.normal = [] := by
  unfold Segment.choose at h
  split at h
  · next hn hu => exact ⟨hu, hn⟩
  · simp at h
  · simp at h
  · split at h <;> simp at h

/-- Only the lists and the streak have changed. -/
def ListsOnly (g g' : Segment) : Prop := g' = { g with urgent := g'.urgent, normal := g'.normal, streak := g'.streak }

theorem ListsOnly.refl (g : Segment) : ListsOnly g g := rfl

theorem ListsOnly.trans {a b c : Segment} (h : ListsOnly a b) (k : ListsOnly b c) : ListsOnly a c := by
  unfold ListsOnly at *
  rw [k, h]

theorem ListsOnly.rest {g g' : Segment} (h : ListsOnly g g') :
    g'.work = g.work ∧ g'.state = g.state ∧ g'.owner = g.owner ∧ g'.held = g.held ∧ g'.sweep = g.sweep := by
  rw [h]
  exact ⟨rfl, rfl, rfl, rfl, rfl⟩

/-- The arbiter takes the head of one of the lists (03 R49, R50). -/
theorem choose_eq_some {g left : Segment} {hd : Handle} (h : g.choose = some (hd, left)) :
    ListsOnly g left ∧ (g.streak ≤ Config.streakLimit → left.streak ≤ Config.streakLimit) ∧
    ∃ c, g.waiting c = hd :: left.waiting c ∧ ∀ c', c' ≠ c → left.waiting c' = g.waiting c' := by
  have normal : ∀ {ns}, g.normal = hd :: ns → left = { g with normal := ns, streak := 0 } → ListsOnly g left ∧
      (g.streak ≤ Config.streakLimit → left.streak ≤ Config.streakLimit) ∧
      ∃ c, g.waiting c = hd :: left.waiting c ∧ ∀ c', c' ≠ c → left.waiting c' = g.waiting c' := fun e1 e2 => by
    subst e2
    exact ⟨rfl, fun _ => Nat.zero_le _, .normal, e1, fun c' hc => by cases c'; exacts [absurd rfl hc, rfl]⟩
  have urgent : ∀ {us n}, g.urgent = hd :: us → n ≤ Config.streakLimit → left = { g with urgent := us, streak := n } → ListsOnly g left ∧
      (g.streak ≤ Config.streakLimit → left.streak ≤ Config.streakLimit) ∧
      ∃ c, g.waiting c = hd :: left.waiting c ∧ ∀ c', c' ≠ c → left.waiting c' = g.waiting c' := fun e1 hn e2 => by
    subst e2
    exact ⟨rfl, fun _ => hn, .urgent, e1, fun c' hc => by cases c'; exacts [rfl, absurd rfl hc]⟩
  unfold Segment.choose at h
  split at h
  · simp at h
  · next hn hu =>
    simp only [Option.some.injEq, Prod.mk.injEq] at h
    obtain ⟨rfl, rfl⟩ := h
    exact urgent hu (Nat.zero_le _) rfl
  · next hn hu =>
    simp only [Option.some.injEq, Prod.mk.injEq] at h
    obtain ⟨rfl, rfl⟩ := h
    exact normal hn rfl
  · next hn hu =>
    split at h <;> simp only [Option.some.injEq, Prod.mk.injEq] at h <;> obtain ⟨rfl, rfl⟩ := h
    · next hs => exact urgent hu (Nat.succ_le_of_lt hs) rfl
    · exact normal hn rfl

theorem updSeg_updSeg (d : Device) (g : SegId) (f f' : Segment → Segment) : (d.updSeg g f).updSeg g f' = d.updSeg g fun x => f' (f x) :=
  Device.ext_parts (fun _ => rfl) (fun _ => rfl) (fun j => by
    simp only [updSeg_seg]
    split <;> rfl) rfl rfl rfl rfl rfl

theorem updSlot_updSeg (d : Device) (k : SlotId) (u : Slot → Slot) (g : SegId) (f : Segment → Segment) :
    (d.updSlot k u).updSeg g f = (d.updSeg g f).updSlot k u := rfl

/-- A conversation with a step and without a stop request is taken up by its engine as it starts (05 R84, R87). -/
theorem startConversation_eq {g : SegId} {hd : Handle} {left : Segment} (hr : (d.seg g).ready = true) (hp : (d.seg g).sweep ≠ .pending)
    (hc : (d.seg g).choose = some (hd, left)) (hs : (d.conv hd).steps ≠ []) (hstop : (d.conv hd).stop = none) :
    ∃ ctx, startConversation g d =
      ((d.updSeg g fun _ => left).updSlot hd.slot fun s => { s with state := .running }).updSeg g fun x =>
        { x with work := .conversation hd ctx, state := .active } := by
  have hconv : ((d.updSeg g fun _ => { left with state := .active }).updSlot hd.slot fun s => { s with state := .running }).conv hd =
      d.conv hd := by simp [Device.conv]
  have hset : ∀ ctx, setContext g hd ctx ((d.updSeg g fun _ => { left with state := .active }).updSlot hd.slot fun s =>
        { s with state := .running }) =
      ((d.updSeg g fun _ => left).updSlot hd.slot fun s => { s with state := .running }).updSeg g fun x =>
        { x with work := .conversation hd ctx, state := .active } := fun ctx => by
    unfold setContext
    rw [updSlot_updSeg, updSlot_updSeg, updSeg_updSeg, updSeg_updSeg]
  obtain ⟨st, rest, hst⟩ := List.exists_cons_of_ne_nil hs
  unfold startConversation
  simp only [hr, hc, Bool.true_and, bne_iff_ne, ne_eq, hp, not_false_eq_true, if_true]
  unfold enterStep enterWaitFree
  rw [hconv, hst, hstop]
  cases st <;> exact ⟨_, hset _⟩

/-- The start of a conversation keeps the base, and the other segments (03 R50). -/
theorem WorkBase.startConversation (h : WorkBase held none d) {g : SegId} (hr : (d.seg g).ready = true)
    (hp : (d.seg g).sweep ≠ .pending) {hd : Handle} {left : Segment} (hc : (d.seg g).choose = some (hd, left)) :
    WorkBase held none (startConversation g d) ∧ ((startConversation g d).seg g).state = .active ∧
      ∀ j, j ≠ g → (startConversation g d).seg j = d.seg j := by
  obtain ⟨hl, hstreak, c, hcons, hother⟩ := choose_eq_some hc
  obtain ⟨hwork, hstate, -⟩ := hl.rest
  have hcount := h.queued g c hd
  rw [hcons, List.count_cons_self] at hcount
  obtain ⟨-, hh, hq, hhome, hcls⟩ : none ≠ some hd.slot ∧ hd = d.handle hd.slot ∧ (d.slot hd.slot).state = .queued ∧
      d.home hd.slot = g ∧ (d.slot hd.slot).conv.cls = c := by
    by_contra hn
    rw [if_neg hn] at hcount
    omega
  subst hhome
  have hstop : (d.conv hd).stop = none := by
    cases e : (d.conv hd).stop
    · rfl
    · have := h.stops hd.slot (by simp only [Device.conv] at e; simp [e])
      rw [hq] at this
      exact absurd this (by decide)
  obtain ⟨ctx, heq⟩ := startConversation_eq hr hp hc (h.steps hd.slot hq) hstop
  have hidle := (ready_iff.mp hr).1
  have hnone : (d.seg (d.home hd.slot)).work = .nothing := by
    by_contra hn
    rw [(h.active _).mpr hn] at hidle
    exact absurd hidle (by decide)
  have hcount1 := h.count_le_one (d.home hd.slot) c hd
  rw [hcons, List.count_cons_self] at hcount1
  have h1 : WorkBase held (some hd.slot) (d.updSeg (d.home hd.slot) fun _ => left) := by
    refine h.unlist hq _ (fun c' h' => ?_) hwork hstate (hstreak (h.streak _))
    rw [← hh]
    by_cases ec : c' = c
    · subst ec
      rw [hcons, List.count_cons]
      by_cases e : h' = hd
      · subst e
        simp
        omega
      · simp [e, Ne.symm e]
    · rw [hother c' ec]
      split
      · next e =>
        subst e
        rw [h.queued, if_neg fun x => ec (x.2.2.2.2.symm.trans hcls)]
      · rfl
  have h2 : WorkBase held (some hd.slot)
      ((d.updSeg (d.home hd.slot) fun _ => left).updSlot hd.slot fun s => { s with state := .running }) := by
    refine h1.updSlot _ (fun i => ?_) ⟨fun e => ?_, fun _ => rfl, fun e => by simp at e⟩ fun e => Or.inl ?_
    · rw [names_of_live (live_of_running rfl), updSeg_slot_frame, names_of_live (live_of_queued hq)]
    · have := h.idleTimer hd.slot e
      rw [hq] at this
      exact absurd this (by decide)
    · exact hosted_iff.mpr ⟨by simp [hq], (hosted_iff.mp e).2⟩
  have hhome : ((d.updSeg (d.home hd.slot) fun _ => left).updSlot hd.slot fun s => { s with state := .running }).home hd.slot =
      d.home hd.slot := by
    simp only [Device.home, updSlot_slot_same, updSeg_slot_frame]
    rfl
  have h3 := h2.engage (by simp) (by rw [hhome]; simpa [hwork] using hnone)
    (fun x => { x with work := .conversation hd ctx, state := .active }) (fun c => by cases c <;> rfl)
    (by
      show some hd = some _
      rw [Device.handle, updSlot_slot_same, updSeg_slot_frame]
      exact congrArg some hh)
    rfl rfl
  rw [hhome] at h3
  rw [heq]
  refine ⟨h3, by simp, fun j hj => ?_⟩
  rw [updSeg_seg_other _ _ hj, updSlot_seg_frame, updSeg_seg_other _ _ hj]

/-- A selection keeps the base and the other segments, and leaves its own segment served (03 R47). -/
theorem makeSelection_spec (h : WorkBase held none d) (g : SegId) :
    WorkBase held none (makeSelection g d) ∧ (∀ j, j ≠ g → (makeSelection g d).seg j = d.seg j) ∧
      (((makeSelection g d).seg g).ready = true → ((makeSelection g d).seg g).offers = false) := by
  have busy : (d.seg g).work ≠ .nothing → (d.seg g).ready = true → (d.seg g).offers = false := fun hw e => by
    rw [not_ready_of_state (by rw [(h.active g).mpr hw]; decide)] at e
    exact absurd e (by decide)
  unfold makeSelection
  split
  · next hw =>
    by_cases hr : (d.seg g).ready = true
    · split
      · next hp =>
        have hs : startSweep g d = d.updSeg g fun x => { x with state := .active, sweep := .running, work := .sweep .start } := by
          simp [startSweep, hr, hp]
        rw [hs]
        refine ⟨h.updSeg_same g _ ⟨fun c => by cases c <;> rfl, by rw [hw]; rfl, fun _ => by simp, Nat.le_refl _⟩,
          fun j hj => updSeg_seg_other _ _ hj, fun e => ?_⟩
        rw [updSeg_seg_same, not_ready_of_state (by simp)] at e
        exact absurd e (by decide)
      · next hp =>
        cases hc : (d.seg g).choose with
        | none =>
          obtain ⟨hu, hn⟩ := choose_eq_none hc
          have hs : startConversation g d = d := by simp [startConversation, hc]
          rw [hs]
          exact ⟨h, fun _ _ => rfl, fun _ => offers_eq_false.mpr ⟨hp, hu, hn⟩⟩
        | some p =>
          obtain ⟨h1, h2, h3⟩ := h.startConversation hr hp (hd := p.1) (left := p.2) hc
          refine ⟨h1, h3, fun e => ?_⟩
          rw [not_ready_of_state (by rw [h2]; decide)] at e
          exact absurd e (by decide)
    · have hs : (if (d.seg g).sweep = .pending then startSweep g d else startConversation g d) = d := by
        simp [startSweep, startConversation, hr]
      rw [hs]
      exact ⟨h, fun _ _ => rfl, fun e => absurd e hr⟩
  · next hw => exact ⟨h, fun _ _ => rfl, busy (by simp [hw])⟩
  · next hw => exact ⟨h, fun _ _ => rfl, busy (by simp [hw])⟩

/-- An event of a segment that makes its selection keeps the law. -/
theorem WorkLaw.select (h : WorkLaw d) {g : SegId} (hb : WorkBase none none t) (other : ∀ j, j ≠ g → t.seg j = d.seg j) :
    WorkLaw (makeSelection g t) := by
  obtain ⟨h1, h2, h3⟩ := makeSelection_spec hb g
  refine (workLaw_iff _).mpr ⟨h1, fun j hr => ?_⟩
  by_cases e : j = g
  · subst e
    exact h3 hr
  · rw [h2 j e, other j e] at hr ⊢
    exact h.served j hr

/-- With a ready engine that has nothing to offer, the two selections given as commands do nothing (log 4). -/
theorem startConversation_served (h : WorkLaw d) (g : SegId) : startConversation g d = d := by
  unfold startConversation
  dsimp only
  split
  · next hr =>
    obtain ⟨-, hu, hn⟩ := offers_eq_false.mp (h.served g (by simp only [Bool.and_eq_true] at hr; exact hr.1))
    simp [Segment.choose, hu, hn]
  · rfl

theorem startSweep_served (h : WorkLaw d) (g : SegId) : startSweep g d = d := by
  unfold startSweep
  dsimp only
  split
  · next hr =>
    simp only [Bool.and_eq_true, beq_iff_eq] at hr
    exact absurd hr.2 (offers_eq_false.mp (h.served g hr.1)).1
  · rfl

/-- A change that may arm a sweep makes the selection if it does (06 R118, R121). -/
theorem WorkLaw.mayArm (h : WorkLaw d) (g : SegId) (f : Segment → Segment) (hf : SegSame (d.seg g) (f (d.seg g)))
    (hr : (f (d.seg g)).ready = (d.seg g).ready) : WorkLaw (mayArm g f d) := by
  have hb := h.base.updSeg_same g f hf
  unfold Machine.mayArm
  dsimp only
  split
  · exact h.select hb fun j hj => updSeg_seg_other _ _ hj
  · next hn =>
    refine h.of_seg hb (fun j hj => updSeg_seg_other _ _ hj) fun e1 e2 => ?_
    rw [updSeg_seg_same] at e1 e2 hn
    refine ⟨hr ▸ e1, offers_iff.mpr ?_⟩
    have hu : (f (d.seg g)).urgent = (d.seg g).urgent := hf.waiting .urgent
    have hno : (f (d.seg g)).normal = (d.seg g).normal := hf.waiting .normal
    obtain e | e := offers_iff.mp e2
    · exact Or.inl (Classical.byContradiction fun e' => hn ⟨e', e⟩)
    · rw [hu, hno] at e
      exact Or.inr e

end Sys2Proof.Machine
end

section
/-! PROOFS. Every event keeps the work law. -/

namespace Sys2Proof.Machine

variable {held : Option TargetId} {loose : Option SlotId} {d t : Device}

/-! ## Timers of the pool -/

/-- A stop request is set on a RUNNING conversation (02 R35). -/
theorem WorkLaw.setStop (h : WorkLaw d) {k : SlotId} (hr : (d.slot k).state = .running) (c : StopCause) : WorkLaw (setStop k c d) :=
  h.of_same_segs (h.base.updSlot_same k _ rfl rfl rfl rfl rfl ⟨h.base.idleTimer k, fun _ => hr, h.base.steps k⟩) fun _ => rfl

theorem WorkLaw.takeStopInWait (h : WorkLaw d) (k : SlotId) : WorkLaw (takeStopInWait k d) := by
  unfold Machine.takeStopInWait
  dsimp only
  split
  · next hd ctx c hw hs =>
    split
    · have hm := endStopped_move (targetSegment d (d.slot k).conv.target) hd ctx c d
      exact h.select (hm.base (runs_eq_some.mpr ⟨ctx, hw⟩) h.base) hm.other
    · exact h
  · exact h

/-- A list shrinks and the rest of the segment stays: no readier. -/
theorem dequeue_notReadier (hd : Handle) (g : Segment) : NotReadier g (g.dequeue hd) := fun hr ho => by
  refine ⟨hr, offers_iff.mpr ?_⟩
  have mono : ∀ {l : List Handle}, l.erase hd ≠ [] → l ≠ [] := fun e e' => e (by simp [e'])
  exact (offers_iff.mp ho).imp id fun e => e.imp mono mono

theorem WorkLaw.endQueued (h : WorkLaw d) {k : SlotId} (hq : (d.slot k).state = .queued) (o : ConvOutcome) : WorkLaw (endQueued k o d) := by
  refine h.of_seg (g := d.home k) (h.base.endQueued hq o) (fun j hj => ?_) ?_
  · unfold Machine.endQueued
    rw [finish_seg]
    exact updSeg_seg_other _ _ hj
  · unfold Machine.endQueued
    rw [finish_seg]
    show NotReadier _ ((d.updSeg (d.home k) _).seg (d.home k))
    rw [updSeg_seg_same]
    exact dequeue_notReadier _ _

theorem WorkLaw.finish_assembling (h : WorkLaw d) {k : SlotId} (ha : (d.slot k).state = .assembling) (r : ConvResult) :
    WorkLaw (finish k r d) := h.of_same_segs (h.base.finish_assembling ha r) fun g => finish_seg k r d g

/-- An ASSEMBLING conversation leaves the pool and its reference goes (02 R30, R36). -/
theorem WorkLaw.dropAssembling (h : WorkLaw d) {k : SlotId} (ha : (d.slot k).state = .assembling) :
    WorkLaw (releaseTarget (d.slot k).conv.target (freeSlot k d)) := by
  have h1 : WorkBase (d.slot k).conv.target.index (some k) (freeSlot k d) := by
    refine ((WorkBase.loose_iff (by simp [ha]) (by simp [ha])).mpr h.base).updSlot _ (fun i => ?_)
      ⟨fun e => by simp [Conv.blank] at e, fun e => by simp [Conv.blank] at e, fun e => by simp at e⟩
      fun e => absurd (hosted_iff.mp e).1 (by simp)
    rw [names_of_dead rfl, names_of_live (live_of_assembling ha), owed_index]
    simp
  have hk := releaseTarget_slotsKept (d.slot k).conv.target (freeSlot k d)
  have hs : ((releaseTarget (d.slot k).conv.target (freeSlot k d)).slot k).state = .free := by
    rw [hk.slot, freeSlot, updSlot_slot_same]
  exact h.of_same_segs ((WorkBase.loose_iff (by simp [hs]) (by simp [hs])).mp h1.releaseTarget) hk.seg

theorem assemblyExpires_workLaw (h : WorkLaw d) (k : SlotId) : WorkLaw (assemblyExpires k d) := by
  unfold assemblyExpires
  split
  · next ht => exact (h.dropAssembling (h.idleTimer k ht)).post _
  · exact h

theorem deadlineExpires_workLaw (h : WorkLaw d) (k : SlotId) : WorkLaw (deadlineExpires k d) := by
  unfold deadlineExpires
  split
  · split <;> rename_i hs
    · exact h.endQueued hs _
    · have h1 : WorkLaw (d.updSlot k fun s => { s with conv := { s.conv with deadlineTimer := none } }) :=
        h.of_same_segs (h.base.updSlot_same k _ rfl rfl rfl rfl rfl (by exact ⟨h.base.idleTimer k, h.base.stops k, h.base.steps k⟩))
          fun _ => rfl
      exact (h1.setStop (by simpa using hs) _).takeStopInWait k
    · exact h
    · exact h
    · exact h
  · exact h

/-! ## The end of a transaction -/

/-- The base after what precedes the classification: the bus has changed hands, the address event is sent. -/
theorem told_base (h : WorkBase none none d) (g : SegId) (f : Segment → Segment) (hf : SegSame (d.seg g) (f (d.seg g))) (a : Target)
    (s : Option Bool) : WorkBase none none (addressEvent a s (d.updSeg g f)) := (h.updSeg_same g f hf).addressEvent a s

theorem told_seg (g : SegId) (f : Segment → Segment) (a : Target) (s : Option Bool) (j : SegId) :
    (addressEvent a s (d.updSeg g f)).seg j = if g = j then f (d.seg j) else d.seg j := by
  rw [addressEvent_seg, updSeg_seg]

/-- An action of an engine for its conversation, after its bus became taken, keeps the law (04 R63, R72). -/
theorem WorkLaw.engineMove (h : WorkLaw d) {g : SegId} {hd : Handle} (hr : (d.seg g).work.runs = some hd) (f : Segment → Segment)
    (hf : SegSame (d.seg g) (f (d.seg g))) (ht : (f (d.seg g)).owner = .taken) (a : Target) (s : Option Bool)
    (hm : EngineMove g hd (addressEvent a s (d.updSeg g f)) t) : WorkLaw t := by
  refine h.of_seg (g := g) (hm.base ?_ (told_base h.base g f hf a s)) (fun j hj => ?_) (.of_not_ready (not_ready_of_taken ?_))
  · rw [told_seg, if_pos rfl, hf.runs, hr]
  · rw [hm.other j hj, told_seg, if_neg (Ne.symm hj)]
  · rw [hm.owner, told_seg, if_pos rfl, ht]

theorem rearm_same (g : Segment) (n : Nat) : SegSame g ({ g with emptySweeps := n } : Segment).rearm := by
  unfold Segment.rearm
  split <;> exact .of_eq rfl rfl rfl rfl rfl

theorem sweepResponder_base (h : WorkBase held loose d) (g : SegId) (a : Addr) : WorkBase held loose (sweepResponder g a d) := by
  unfold sweepResponder
  dsimp only
  refine WorkBase.updSeg_same ?_ g _ (rearm_same _ 0)
  split
  · exact (h.post _).ackEvent _
  · exact h.post _

/-- What a sweep's end does to its segment: the sweep's own state alone. -/
theorem rearm_rest (g : Segment) (n : Nat) : ({ g with emptySweeps := n } : Segment).rearm.work = g.work ∧
    ({ g with emptySweeps := n } : Segment).rearm.owner = g.owner := by
  unfold Segment.rearm
  split <;> exact ⟨rfl, rfl⟩

theorem sweepResponder_seg (g : SegId) (a : Addr) (d : Device) :
    (∀ j, j ≠ g → (sweepResponder g a d).seg j = d.seg j) ∧ ((sweepResponder g a d).seg g).work = (d.seg g).work ∧
      ((sweepResponder g a d).seg g).owner = (d.seg g).owner := by
  unfold sweepResponder
  dsimp only
  have hs : ∀ j, (match lookup g a d with
    | some i => ackEvent i (post (.alert g i (d.entry i).label a) d)
    | none => post (.alertUnknown g a) d).seg j = d.seg j := fun j => by
    split
    · exact (ackEvent_slotsKept ..).seg j
    · rfl
  refine ⟨fun j hj => ?_, ?_, ?_⟩
  · rw [updSeg_seg_other _ _ hj]
    exact hs j
  · rw [updSeg_seg_same, (rearm_rest _ 0).1]
    exact congrArg Segment.work (hs g)
  · rw [updSeg_seg_same, (rearm_rest _ 0).2]
    exact congrArg Segment.owner (hs g)

theorem sweepEmpty_base (h : WorkBase held loose d) (g : SegId) : WorkBase held loose (sweepEmpty g d) := by
  unfold sweepEmpty
  dsimp only
  split
  · exact h.updSeg_same g _ (.of_eq rfl rfl rfl rfl rfl)
  · split
    · exact h.updSeg_same g _ (.of_eq rfl rfl rfl rfl rfl)
    · exact (h.updSeg_same g _ (.of_eq rfl rfl rfl rfl rfl)).post _

theorem sweepEmpty_seg (g : SegId) (d : Device) :
    (∀ j, j ≠ g → (sweepEmpty g d).seg j = d.seg j) ∧ ((sweepEmpty g d).seg g).work = (d.seg g).work ∧
      ((sweepEmpty g d).seg g).owner = (d.seg g).owner := by
  unfold sweepEmpty
  dsimp only
  split
  · exact ⟨fun j hj => updSeg_seg_other _ _ hj, by rw [updSeg_seg_same]; rfl, by rw [updSeg_seg_same]; rfl⟩
  · split
    · exact ⟨fun j hj => updSeg_seg_other _ _ hj, by rw [updSeg_seg_same], by rw [updSeg_seg_same]⟩
    · exact ⟨fun j hj => updSeg_seg_other _ _ hj, by rw [post_seg, updSeg_seg_same], by rw [post_seg, updSeg_seg_same]⟩

/-- The engine lets go of a sweep, or of nothing (06 R120). -/
theorem endSweep_base (h : WorkBase held loose d) {g : SegId} (hn : (d.seg g).work.runs = none) : WorkBase held loose (endSweep g d) :=
  h.updSeg_same g _ ⟨fun c => by cases c <;> rfl, hn.symm, fun _ => by simp, Nat.le_refl _⟩

theorem sweepEnds_spec (h : WorkBase held loose d) {g : SegId} (hn : (d.seg g).work.runs = none) (n : Option Nat) (l : List Byte) :
    WorkBase held loose (sweepEnds g n l d) ∧ (∀ j, j ≠ g → (sweepEnds g n l d).seg j = d.seg j) ∧
      ((sweepEnds g n l d).seg g).owner = (d.seg g).owner := by
  have key : ∀ t : Device, WorkBase held loose t → (∀ j, j ≠ g → t.seg j = d.seg j) ∧ (t.seg g).work = (d.seg g).work ∧
      (t.seg g).owner = (d.seg g).owner → WorkBase held loose (endSweep g t) ∧ (∀ j, j ≠ g → (endSweep g t).seg j = d.seg j) ∧
      ((endSweep g t).seg g).owner = (d.seg g).owner := fun t hb ⟨h1, h2, h3⟩ =>
    ⟨endSweep_base hb (by rw [h2, hn]), fun j hj => by unfold endSweep; rw [updSeg_seg_other _ _ hj, h1 j hj],
      by unfold endSweep; rw [updSeg_seg_same, h3]⟩
  unfold sweepEnds
  split
  · exact key _ (sweepResponder_base h _ _) (sweepResponder_seg ..)
  · exact key _ (sweepEmpty_base h _) (sweepEmpty_seg ..)

theorem placeStop_same (g : Segment) : SegSame g { g with owner := .taken, freeCount := true } := .of_eq rfl rfl rfl rfl rfl
theorem taken_same (g : Segment) : SegSame g { g with owner := .taken, freeCount := false } := .of_eq rfl rfl rfl rfl rfl

theorem transactionEnds_workLaw (h : WorkLaw d) (g : SegId) (n : Option Nat) (l : List Byte) : WorkLaw (transactionEnds g n l d) := by
  unfold transactionEnds
  split
  · split <;> rename_i hw
    · unfold conversationTxnEnds
      dsimp only
      split
      · exact h.engineMove (runs_eq_some.mpr ⟨_, hw⟩) _ (placeStop_same _) rfl _ _ (classify_move ..)
      · exact h
    · have hb := h.base.updSeg_same g (fun g => { g with owner := .taken, freeCount := true }) (placeStop_same _)
      obtain ⟨h1, h2, h3⟩ := sweepEnds_spec hb (g := g) (by rw [updSeg_seg_same]; simp [hw, Work.runs]) n l
      refine h.of_seg (g := g) h1 (fun j hj => ?_) (.of_not_ready (not_ready_of_taken ?_))
      · show (sweepEnds g n l (d.updSeg g _)).seg j = _
        rw [h2 j hj, updSeg_seg_other _ _ hj]
      · show ((sweepEnds g n l (d.updSeg g _)).seg g).owner = _
        rw [h3, updSeg_seg_same]
    · exact h
  · exact h

theorem losesArbitration_workLaw (h : WorkLaw d) (g : SegId) (n : Nat) : WorkLaw (losesArbitration g n d) := by
  unfold losesArbitration
  split
  · dsimp only
    split <;> rename_i hw
    · exact h.engineMove (runs_eq_some.mpr ⟨_, hw⟩) _ (taken_same _) rfl _ _ (afterArbLost_move ..)
    · unfold endSweep
      rw [updSeg_updSeg, updSeg_updSeg]
      exact h.updSeg g _ ⟨fun c => by cases c <;> rfl, by simp [hw, Work.runs], fun _ => by simp, Nat.le_refl _⟩
        (.of_not_ready (not_ready_of_taken rfl))
    · exact h
  · exact h

/-! ## Timed waits -/

theorem retryGapExpires_workLaw (h : WorkLaw d) (g : SegId) : WorkLaw (retryGapExpires g d) := by
  unfold retryGapExpires
  split <;> rename_i hw
  · split
    · exact h.select ((enterWaitFree_move ..).base (runs_eq_some.mpr ⟨_, hw⟩) h.base) (enterWaitFree_move ..).other
    · exact h
  · exact h
  · exact h

theorem intervalExpires_workLaw (h : WorkLaw d) (g : SegId) : WorkLaw (intervalExpires g d) := by
  unfold intervalExpires
  split <;> rename_i hw
  · split
    · exact h.select ((enterWaitFree_move ..).base (runs_eq_some.mpr ⟨_, hw⟩) h.base) (enterWaitFree_move ..).other
    · exact h
  · exact h
  · exact h

theorem pauseExpires_workLaw (h : WorkLaw d) (g : SegId) : WorkLaw (pauseExpires g d) := by
  unfold pauseExpires
  split <;> rename_i hw
  · split
    · exact h.select ((enterStep_move ..).base (runs_eq_some.mpr ⟨_, hw⟩) h.base) (enterStep_move ..).other
    · exact h
  · exact h
  · exact h

/-! ## Faults and recovery -/

theorem WorkBase.of_receptionOnly (h : WorkBase held loose d) (k : ReceptionOnly d t) : WorkBase held loose t := by
  have hw : ∀ g c, (t.seg g).waiting c = (d.seg g).waiting c := fun g c => by
    rw [k.seg g]
    cases c <;> rfl
  have hwork : ∀ g, (t.seg g).work = (d.seg g).work := fun g => by rw [k.seg g]
  have hstate : ∀ g, (t.seg g).state = (d.seg g).state := fun g => by rw [k.seg g]
  have hstreak : ∀ g, (t.seg g).streak = (d.seg g).streak := fun g => by rw [k.seg g]
  have hp : ∀ bank i, t.poll bank i = d.poll bank i := fun _ _ => by simp only [Device.poll, k.schedule]
  have hh : ∀ i, t.home i = d.home i := fun i => by
    simp only [Device.home, k.slot, targetSegment]
    split <;> simp only [k.entry]
  have hd : ∀ i, t.handle i = d.handle i := fun i => by simp only [Device.handle, k.slot]
  have hr : ∀ i, references t i = references d i := fun i => by simp only [references_eq, k.slot, hp]
  have ho : Machine.hostHeld t = Machine.hostHeld d := by simp only [Machine.hostHeld, k.slot]
  obtain ⟨h1, h2, h3, h4, h5, h6, h7, h8, h9, h10, h11⟩ := h
  constructor <;> simpa only [k.entry, k.slot, hw, hwork, hstate, hstreak, hh, hd, hr, ho] using by assumption

theorem WorkLaw.of_receptionOnly (h : WorkLaw d) (k : ReceptionOnly d t) : WorkLaw t :=
  h.of_segs (h.base.of_receptionOnly k) fun g => by
    rw [k.seg g]
    exact fun a b => ⟨a, b⟩

/-- A segment without work enters RECOVERING (04 R76, R78). -/
theorem enterRecovering_spec (h : WorkBase held loose d) {g : SegId} (hn : (d.seg g).work = .nothing) (fb : Bool) :
    WorkBase held loose (enterRecovering g fb d) ∧ ((enterRecovering g fb d).seg g).state = .recovering := by
  have hc := cutReception_receptionOnly g d
  have hw : ((cutReception g d).seg g).work = .nothing := by rw [hc.seg g, hn]
  unfold enterRecovering
  refine ⟨(h.of_receptionOnly hc).updSeg_same g _ ⟨fun c => by cases c <;> rfl, rfl, fun _ => by simp [hw], Nat.le_refl _⟩, ?_⟩
  rw [updSeg_seg_same]

theorem cutReception_seg_other {g j : SegId} (h : j ≠ g) (d : Device) : (cutReception g d).seg j = d.seg j := by
  unfold cutReception
  split
  · exact updSeg_seg_other _ _ h
  · exact updSeg_seg_other _ _ h
  · exact updSeg_seg_other _ _ h
  · rfl

theorem enterRecovering_seg_other {g j : SegId} (h : j ≠ g) (fb : Bool) (d : Device) : (enterRecovering g fb d).seg j = d.seg j := by
  unfold enterRecovering
  rw [updSeg_seg_other _ _ h, cutReception_seg_other h]

/-- A segment whose engine has let go of its work and that then enters RECOVERING keeps the law. -/
theorem WorkLaw.recovering (h : WorkLaw d) {g : SegId} (hb : WorkBase none none t) (hn : (t.seg g).work = .nothing)
    (other : ∀ j, j ≠ g → t.seg j = d.seg j) (fb : Bool) : WorkLaw (enterRecovering g fb t) := by
  obtain ⟨h1, h2⟩ := enterRecovering_spec hb hn fb
  exact h.of_seg h1 (fun j hj => (enterRecovering_seg_other hj fb t).trans (other j hj))
    (.of_not_ready (not_ready_of_state (by rw [h2]; decide)))

theorem ownStart_base (h : WorkBase held loose d) (g : SegId) (p : BusPos) : WorkBase held loose (ownStart g p d) := by
  unfold ownStart
  split
  · exact h.updSeg_same g _ (taken_same _)
  · exact h

theorem ownStart_seg (g : SegId) (p : BusPos) (d : Device) :
    (∀ j, j ≠ g → (ownStart g p d).seg j = d.seg j) ∧ ((ownStart g p d).seg g).work = (d.seg g).work := by
  unfold ownStart
  split
  · exact ⟨fun j hj => updSeg_seg_other _ _ hj, by rw [updSeg_seg_same]⟩
  · exact ⟨fun _ _ => rfl, rfl⟩

theorem enterFault_base (h : WorkBase held loose d) (g : SegId) (k : FaultKind) (r : Option (Handle × Nat)) (b : Option Nat) :
    WorkBase held loose (enterFault g k r b d) := h.updSeg_same g _ (.of_eq rfl rfl rfl rfl rfl)

theorem enterFault_seg (g : SegId) (k : FaultKind) (r : Option (Handle × Nat)) (b : Option Nat) (d : Device) :
    (∀ j, j ≠ g → (enterFault g k r b d).seg j = d.seg j) ∧ ((enterFault g k r b d).seg g).work = (d.seg g).work := by
  unfold enterFault
  exact ⟨fun j hj => updSeg_seg_other _ _ hj, by rw [updSeg_seg_same]⟩

theorem endConversation_work (g : SegId) (hd : Handle) (ctx : Context) (o : ConvOutcome) (n : Option Nat) (d : Device) :
    ((endConversation g hd ctx o n d).seg g).work = .nothing := by
  unfold endConversation
  rw [updSeg_seg_same]

theorem wireFault_workLaw (h : WorkLaw d) (g : SegId) (k : FaultKind) (p : BusPos) : WorkLaw (wireFault g k p d) := by
  obtain ⟨ho, how⟩ := ownStart_seg g p d
  unfold wireFault
  split <;> rename_i hw
  · exact h
  · next hd ctx =>
    dsimp only
    generalize he : addressEvent (d.conv hd).target (posSampled p) (ownStart g p d) = e
    have he' : ∀ a, addressEvent a (posSampled p) (ownStart g p d) = e → (∀ j, e.seg j = (ownStart g p d).seg j) :=
      fun a ea j => by rw [← ea, addressEvent_seg]
    have hbe : WorkBase none none e := he ▸ (ownStart_base h.base g p).addressEvent _ _
    obtain ⟨hf, hfw⟩ := enterFault_seg g k (some (hd, ctx.current)) (posByteIndex p) e
    have hm := endFailed_move g hd { ctx with stepData := [] } k.outcome (enterFault g k (some (hd, ctx.current)) (posByteIndex p) e)
    refine h.recovering (hm.base ?_ (enterFault_base hbe _ _ _ _)) (endConversation_work ..) (fun j hj => ?_) false
    · rw [hfw, he' _ he, how, hw]
      rfl
    · rw [hm.other j hj, hf j hj, he' _ he, ho j hj]
  · dsimp only
    obtain ⟨hf, hfw⟩ := enterFault_seg g k none (posByteIndex p) (ownStart g p d)
    have hb := (enterFault_base (ownStart_base h.base g p) g k none (posByteIndex p)).updSeg_same g Segment.rearm (rearm_same _ _)
    refine h.recovering (endSweep_base hb ?_) (by unfold endSweep; rw [updSeg_seg_same]) (fun j hj => ?_) false
    · rw [updSeg_seg_same, (rearm_rest _ _).1, hfw, how, hw]
      rfl
    · unfold endSweep
      rw [updSeg_seg_other _ _ hj, updSeg_seg_other _ _ hj, hf j hj, ho j hj]

theorem lineWatchFires_workLaw (h : WorkLaw d) (g : SegId) : WorkLaw (lineWatchFires g d) := by
  unfold lineWatchFires
  split <;> rename_i hw
  · obtain ⟨hf, hfw⟩ := enterFault_seg g .busFault none none d
    exact h.recovering (enterFault_base h.base _ _ _ _) (hfw.trans hw) hf false
  · exact wireFault_workLaw h _ _ _

theorem stalls_workLaw (h : WorkLaw d) (g : SegId) (p : BusPos) : WorkLaw (stalls g p d) := by
  unfold stalls
  split
  · exact wireFault_workLaw h _ _ _
  · exact h

theorem faults_workLaw (h : WorkLaw d) (g : SegId) (s : FaultSite) : WorkLaw (faults g s d) := by
  unfold faults
  split
  · split
    · exact lineWatchFires_workLaw h _
    · exact h
  · split
    · exact wireFault_workLaw h _ _ _
    · exact h
  · split
    · exact wireFault_workLaw h _ _ _
    · exact h

theorem receptionStalls_workLaw (h : WorkLaw d) (g : SegId) : WorkLaw (receptionStalls g d) := by
  have hc := h.of_receptionOnly (cutReception_receptionOnly g d)
  unfold receptionStalls
  split
  · dsimp only
    split
    · exact lineWatchFires_workLaw hc _
    · exact hc
  · exact h

/-- A segment that is not ACTIVE may take another such state. -/
theorem SegSame.of_state {g g' : Segment} (hu : g'.urgent = g.urgent) (hn : g'.normal = g.normal) (hw : g'.work = g.work)
    (hs : g'.streak = g.streak) (h : g.state ≠ .active) (h' : g'.state ≠ .active) : SegSame g g' :=
  ⟨fun c => by cases c; exacts [hn, hu], by rw [hw], fun e => by simp only [h, false_iff] at e; simp [h', hw, e], hs.le⟩

theorem alrFell_rest (g : Segment) :
    g.alrFell.urgent = g.urgent ∧ g.alrFell.normal = g.normal ∧ g.alrFell.work = g.work ∧ g.alrFell.streak = g.streak ∧
      g.alrFell.state = g.state ∧ g.alrFell.owner = g.owner ∧ g.alrFell.held = g.held := by
  unfold Segment.alrFell
  split <;> exact ⟨rfl, rfl, rfl, rfl, rfl, rfl, rfl⟩

theorem recoverySucceeds_workLaw (h : WorkLaw d) (g : SegId) (l : RecoveryLines) : WorkLaw (recoverySucceeds g l d) := by
  unfold recoverySucceeds
  split
  · next hs =>
    split
    · next n _ =>
      unfold recovers
      dsimp only
      have h1 : WorkLaw (if (d.seg g).fromBlocked then post (.segmentState g .recovered) d else d) := by
        split
        · exact h.post _
        · exact h
      have hs1 : (if (d.seg g).fromBlocked then post (.segmentState g .recovered) d else d).seg g = d.seg g := by split <;> rfl
      generalize (if (d.seg g).fromBlocked then post (.segmentState g .recovered) d else d) = e at h1 hs1 ⊢
      unfold placeStop
      rw [updSeg_updSeg]
      obtain ⟨e1, e2, e3, e4, e5, e6, -⟩ := alrFell_rest
        { e.seg g with owner := .taken, freeCount := true, state := .idle, fromBlocked := false, pulses := n }
      refine h1.updSeg g _ ?_ (.of_not_ready (not_ready_of_taken ?_))
      · have hna : (e.seg g).state ≠ .active := by rw [hs1, hs]; decide
        split
        · exact .of_state e1 e2 e3 e4 hna (by rw [e5]; simp)
        · exact .of_state rfl rfl rfl rfl hna (by simp)
      · split
        · exact e6
        · rfl
    · exact h
  · exact h

theorem recoveryFails_workLaw (h : WorkLaw d) (g : SegId) (l : RecoveryLines) : WorkLaw (recoveryFails g l d) := by
  unfold recoveryFails
  split
  · next hs =>
    split
    · refine WorkLaw.post ?_ _
      unfold enterFault
      rw [updSeg_updSeg]
      exact h.updSeg g _ (.of_state rfl rfl rfl rfl (by rw [hs]; decide) (by simp)) (.of_not_ready (not_ready_of_state (by simp)))
    · exact h
  · exact h

/-! ## The bus, the receivers, ALR -/

theorem startSeen_runs (w : Work) : w.startSeen.runs = w.runs ∧ (w.startSeen = .nothing ↔ w = .nothing) := by
  cases w with
  | nothing => exact ⟨rfl, Iff.rfl⟩
  | sweep p => exact ⟨rfl, by simp [Work.startSeen]⟩
  | conversation h ctx =>
    unfold Work.startSeen
    dsimp only
    split <;> exact ⟨rfl, by simp⟩

theorem startSeen_workLaw (h : WorkLaw d) (g : SegId) : WorkLaw (startSeen g d) := by
  unfold startSeen
  split
  · obtain ⟨hr, hn⟩ := startSeen_runs ((endReception g d).seg g).work
    exact (h.of_receptionOnly (endReception_receptionOnly g d)).updSeg g _
      ⟨fun c => by cases c <;> rfl, hr, fun e => e.trans (not_congr hn.symm), Nat.le_refl _⟩ (.of_not_ready (not_ready_of_taken rfl))
  · exact h

theorem stopSeen_workLaw (h : WorkLaw d) (g : SegId) : WorkLaw (stopSeen g d) := by
  unfold stopSeen
  split
  · exact (h.of_receptionOnly (endReception_receptionOnly g d)).updSeg g _ (.of_eq rfl rfl rfl rfl rfl) fun a b => ⟨a, b⟩
  · exact h

theorem startWaiting_base (h : WorkBase none none d) (g : SegId) : WorkBase none none (startWaiting g d) := by
  unfold startWaiting
  split <;> rename_i hw
  · split
    · exact (setTransaction_move ..).base (runs_eq_some.mpr ⟨_, hw⟩) h
    · exact h
  · exact h.updSeg_same g _ ⟨fun c => by cases c <;> rfl, by rw [hw]; rfl, fun e => by rw [e, hw]; simp, Nat.le_refl _⟩
  · exact h

theorem startWaiting_seg_other {g j : SegId} (h : j ≠ g) (d : Device) : (startWaiting g d).seg j = d.seg j := by
  unfold startWaiting
  split
  · split
    · exact updSeg_seg_other _ _ h
    · rfl
  · exact updSeg_seg_other _ _ h
  · rfl

theorem becomesFree_workLaw (h : WorkLaw d) (g : SegId) : WorkLaw (becomesFree g d) :=
  h.select (startWaiting_base (h.base.updSeg_same g _ (.of_eq rfl rfl rfl rfl rfl)) g) fun j hj => by
    rw [startWaiting_seg_other hj, updSeg_seg_other _ _ hj]

theorem freeTimeExpires_workLaw (h : WorkLaw d) (g : SegId) : WorkLaw (freeTimeExpires g d) := by
  unfold freeTimeExpires
  split
  · exact becomesFree_workLaw h g
  · exact h

theorem idleTimeout_workLaw (h : WorkLaw d) (g : SegId) : WorkLaw (idleTimeout g d) := by
  unfold idleTimeout
  split
  · exact becomesFree_workLaw (h.of_receptionOnly (cutReception_receptionOnly g d)) g
  · exact h

theorem alrFalls_workLaw (h : WorkLaw d) (g : SegId) : WorkLaw (alrFalls g d) := by
  obtain ⟨e1, e2, e3, e4, e5, e6, e7⟩ := alrFell_rest { d.seg g with alrLow := true }
  refine h.mayArm g _ ?_ ?_ <;> dsimp only <;> split
  · exact .of_eq rfl rfl rfl rfl rfl
  · exact .of_eq e1 e2 e3 e5 e4
  · rfl
  · simp only [Segment.ready, e5, e6, e7]

theorem alrRises_workLaw (h : WorkLaw d) (g : SegId) : WorkLaw (alrRises g d) := by
  refine h.updSeg g _ ?_ ?_ <;> dsimp only <;> split
  · exact .of_eq rfl rfl rfl rfl rfl
  · exact .of_eq rfl rfl rfl rfl rfl
  · exact fun hr ho => ⟨hr, offers_iff.mpr ((offers_iff.mp ho).imp (fun e => by simp [Segment.disarm] at e) id)⟩
  · exact fun a b => ⟨a, b⟩

theorem holdoffExpires_workLaw (h : WorkLaw d) (g : SegId) : WorkLaw (holdoffExpires g d) := by
  refine h.mayArm g _ ?_ ?_ <;> split
  · split <;> exact .of_eq rfl rfl rfl rfl rfl
  · exact .of_eq rfl rfl rfl rfl rfl
  · split <;> rfl
  · rfl

/-! ## Due evaluation and the frame boundary (07) -/

/-- Conversations have joined lists, and nothing else has changed in the segments. -/
def Joined (d t : Device) : Prop :=
  ∀ g, ∃ us ns, t.seg g = { d.seg g with urgent := (d.seg g).urgent ++ us, normal := (d.seg g).normal ++ ns }

theorem Joined.refl (d : Device) : Joined d d := fun g => ⟨[], [], by simp⟩

theorem Joined.of_segs {e : Device} (h : Joined d e) (hs : ∀ g, t.seg g = e.seg g) : Joined d t := fun g => by
  rw [hs g]
  exact h g

theorem Joined.enqueue {e : Device} (h : Joined d e) (g : SegId) (c : Class) (hd : Handle) : Joined d (e.updSeg g (·.enqueue c hd)) := by
  intro j
  obtain ⟨us, ns, he⟩ := h j
  rw [updSeg_seg]
  split
  · cases c
    · exact ⟨us, ns ++ [hd], by rw [he]; simp [Segment.enqueue]⟩
    · exact ⟨us ++ [hd], ns, by rw [he]; simp [Segment.enqueue]⟩
  · exact ⟨us, ns, he⟩

/-- A conversation is placed in a FREE slot: it is on its way, and its entry has one reference more (02 R23). -/
theorem WorkBase.placeConversation (h : WorkBase none none d) {k : SlotId} (hf : (d.slot k).state = .free) {st : SlotState} {c : Conv}
    (hl : ∀ g, (⟨g, st, c⟩ : Slot).live = true) (hp : ∀ g, (⟨g, st, c⟩ : Slot).Proper)
    (hh : c.origin = .host → Machine.hostHeld d < Config.hostSlots) (ht : ∀ i, c.target = .directory i → (d.entry i).presence ≠ .vacant) :
    WorkBase none (some k) (placeConversation k st c d) := by
  have h1 : WorkBase c.target.index (some k) (raiseTarget c.target d) := by
    have := (WorkBase.loose_iff (k := k) (by simp [hf]) (by simp [hf])).mpr h
    cases hc : c.target with
    | directory i => exact this.raiseRef (ht i hc)
    | raw => exact this
  have hs : (raiseTarget c.target d).slot k = d.slot k := (raiseTarget_slotsKept ..).slot k
  have hheld : Machine.hostHeld (raiseTarget c.target d) = Machine.hostHeld d := by
    simp only [Machine.hostHeld, (raiseTarget_slotsKept ..).slot]
  have heq : Machine.placeConversation k st c d = (raiseTarget c.target d).updSlot k fun s => { s with state := st, conv := c } := by
    unfold Machine.placeConversation
    cases c.target <;> rfl
  rw [heq]
  refine h1.updSlot _ (fun i => ?_) (hp _) fun e => Or.inr (hheld ▸ hh (hosted_iff.mp e).2)
  rw [names_of_live (hl _), hs, names_of_dead (by simp [Slot.live, hf]), owed_index]
  simp

theorem placeConversation_slot (k : SlotId) (st : SlotState) (c : Conv) (d : Device) :
    (placeConversation k st c d).slot k = ⟨(d.slot k).gen, st, c⟩ := by
  unfold placeConversation
  rw [(raiseTarget_slotsKept ..).slot, updSlot_slot_same]

theorem placeConversation_seg (k : SlotId) (st : SlotState) (c : Conv) (d : Device) (g : SegId) :
    (placeConversation k st c d).seg g = d.seg g := (raiseTarget_slotsKept ..).seg g

/-- A conversation on its way is queued (03 R45). -/
theorem WorkBase.queueConversation {k : SlotId} (h : WorkBase none (some k) d) (hl : (d.slot k).live = true)
    (hs : (d.slot k).conv.steps ≠ []) (hst : (d.slot k).conv.stop = none) : WorkBase none none (queueConversation k d) := by
  have h1 : WorkBase none (some k) (d.updSlot k fun s =>
      { s with state := .queued, conv := { s.conv with assemblyTimer := none, deadlineTimer := s.conv.deadline } }) := by
    refine h.updSlot _ (fun i => ?_) ⟨fun e => by simp at e, fun e => by simp [hst] at e, fun _ => hs⟩
      fun e => Or.inl (hosted_iff.mpr ⟨fun e' => by simp [Slot.live, e'] at hl, (hosted_iff.mp e).2⟩)
    rw [names_of_live (live_of_queued rfl), names_of_live hl]
  have h2 := h1.enqueue (by simp)
  have hslot : ∀ f : Slot → Slot, (d.updSlot k f).slot k = f (d.slot k) := fun f => updSlot_slot_same d k f
  rw [Device.home, hslot] at h2
  exact h2

theorem queueConversation_joined {e : Device} (h : Joined d e) (k : SlotId) : Joined d (queueConversation k e) :=
  Joined.enqueue (e := e.updSlot k _) (h.of_segs fun _ => rfl) _ _ _

theorem queueConversation_poll (k : SlotId) (bank : Bank) (i : PollId) : (queueConversation k d).poll bank i = d.poll bank i := rfl

theorem placeConversation_poll (k : SlotId) (st : SlotState) (c : Conv) (bank : Bank) (i : PollId) :
    (placeConversation k st c d).poll bank i = d.poll bank i := by
  unfold placeConversation
  cases c.target <;> rfl

theorem lowestFree_free {k : SlotId} (h : lowestFree d = some k) : (d.slot k).state = .free := by
  simpa using List.find?_some h

/-- A due entry is handled: the base stays, and a handle joins at most (07 R139 to R142). -/
theorem handleDue_spec {e0 : Device} (h : WorkBase none none d) (hj : Joined e0 d) {bank : Bank} {i : PollId} {e : PollEntry}
    (he : d.poll bank i = some e) : WorkBase none none (handleDue bank i e d) ∧ Joined e0 (handleDue bank i e d) := by
  unfold handleDue
  split
  · dsimp only
    split
    · exact ⟨(h.post _).setPoll_same (e := e) he rfl, hj.of_segs fun _ => rfl⟩
    · exact ⟨h.setPoll_same he rfl, hj.of_segs fun _ => rfl⟩
  · split
    · dsimp only
      split
      · exact ⟨h.setPoll_same he rfl, hj.of_segs fun _ => rfl⟩
      · exact ⟨(h.post _).setPoll_same (e := e) he rfl, hj.of_segs fun _ => rfl⟩
    · next k hk =>
      split
      · refine ⟨h.applyFailure he rfl _, hj.of_segs fun g => ?_⟩
        unfold applyFailure
        dsimp only
        split <;> rfl
      · unfold createInstance
        dsimp only
        have hv : (d.entry e.config.target).presence ≠ .vacant := fun e' => by
          have h1 := h.vacant _ e'
          have h2 := h.counted e.config.target
          have h3 := references_pos_of_poll he
          omega
        have h1 := h.placeConversation (lowestFree_free hk) (st := .queued) (c := instanceConv bank i e.config d.schedule.frameLength)
          (fun _ => rfl) (fun _ => ⟨fun e => by simp [instanceConv] at e, fun e => by simp [instanceConv] at e,
            fun _ => by simp [instanceConv]⟩) (fun e => by simp [instanceConv] at e) fun j hj => by
              obtain rfl : e.config.target = j := by simpa [instanceConv] using hj
              exact hv
        have hs := placeConversation_slot k .queued (instanceConv bank i e.config d.schedule.frameLength) d
        have h2 := h1.queueConversation (by rw [hs]; rfl) (by rw [hs]; simp [instanceConv]) (by rw [hs]; rfl)
        refine ⟨h2.setPoll_same (e := e) ?_ rfl, Joined.of_segs (queueConversation_joined (hj.of_segs ?_) k) fun _ => rfl⟩
        · rw [queueConversation_poll, placeConversation_poll, he]
        · exact fun g => placeConversation_seg ..

theorem evaluateFrame_spec {e0 : Device} (h : WorkBase none none d) (hj : Joined e0 d) :
    WorkBase none none (evaluateFrame d) ∧ Joined e0 (evaluateFrame d) := by
  refine foldl_keeps (P := fun t => WorkBase none none t ∧ Joined e0 t) evaluateEntry (fun t i ht => ?_) _ ⟨h, hj⟩
  unfold evaluateEntry
  split
  · exact ht
  · next e he =>
    split
    · exact handleDue_spec ht.1 ht.2 he
    · exact ht

/-- The selections after an action that has let conversations join lists (03 R47; log 35): each segment is either as it was, or selects. -/
theorem WorkLaw.selectAfterJoins (h : WorkLaw d) (hb : WorkBase none none t) (hj : Joined d t) : WorkLaw (selectAfterJoins d t) := by
  have key : ∀ (l : List SegId) (e : Device), WorkBase none none e →
      (∀ g, (e.seg g).ready = true → (e.seg g).offers = false ∨ g ∈ l ∧ e.seg g = t.seg g) →
      WorkLaw (l.foldl (selectIfJoined d) e) := by
    intro l
    induction l with
    | nil => exact fun e he hs => (workLaw_iff e).mpr ⟨he, fun g hr => (hs g hr).resolve_right fun x => by simp at x⟩
    | cons g l ih =>
      intro e he hs
      rw [List.foldl_cons]
      unfold selectIfJoined
      split
      · next hsame =>
        refine ih e he fun j hr => (hs j hr).elim Or.inl fun ⟨hm, hseg⟩ => ?_
        by_cases ej : j = g
        · subst ej
          obtain ⟨us, ns, ht⟩ := hj j
          rw [hseg, ht] at hsame
          simp only [List.append_right_eq_self] at hsame
          have hd : e.seg j = d.seg j := by simpa [hsame.1, hsame.2] using hseg.trans ht
          rw [hd] at hr ⊢
          exact Or.inl (h.served j hr)
        · exact Or.inr ⟨(List.mem_cons.mp hm).resolve_left ej, hseg⟩
      · obtain ⟨h1, h2, h3⟩ := makeSelection_spec he g
        refine ih _ h1 fun j hr => ?_
        by_cases ej : j = g
        · subst ej
          exact Or.inl (h3 hr)
        · rw [h2 j ej] at hr ⊢
          exact (hs j hr).imp id fun ⟨hm, hseg⟩ => ⟨(List.mem_cons.mp hm).resolve_left ej, hseg⟩
  exact key (List.finRange 4) t hb fun g _ => Or.inr ⟨List.mem_finRange g, rfl⟩

theorem pollNames_carryOver (o n : Option PollEntry) (i : TargetId) : pollNames (carryOver o n) i = pollNames n i := by
  unfold carryOver
  split
  · rfl
  · split <;> rfl
  · rfl

theorem swapBanks_base (h : WorkBase held loose d) : WorkBase held loose (swapBanks d) := by
  unfold swapBanks
  dsimp only
  apply WorkBase.post
  refine h.of_parts (fun _ => rfl) (fun _ => rfl) (fun _ => rfl) fun bank k i => ?_
  show pollNames ((Schedule.bank (Schedule.updBank _ _ _) bank).get k) i = _
  rw [updBank_bank]
  split
  · rw [mapTable_get, pollNames_carryOver]
    cases bank <;> rfl
  · cases bank <;> rfl

theorem swapIfPending_base (h : WorkBase held loose d) : WorkBase held loose (swapIfPending d) := by
  unfold swapIfPending
  split
  · exact (swapBanks_base h).updSchedule _ fun bank k i => by cases bank <;> rfl
  · exact h

theorem swapIfPending_seg (d : Device) (g : SegId) : (swapIfPending d).seg g = d.seg g := by
  unfold swapIfPending
  split <;> rfl

theorem frameBoundary_spec (h : WorkLaw d) : WorkBase none none (frameBoundary d) ∧ Joined d (frameBoundary d) := by
  unfold frameBoundary
  dsimp only
  have h1 : WorkBase none none (d.updSchedule fun s => { s with frame := s.frame + 1#32 }) :=
    h.base.updSchedule _ fun bank _ _ => by cases bank <;> rfl
  have hs : ∀ g, (d.updSchedule fun s => { s with frame := s.frame + 1#32 }).seg g = d.seg g := fun _ => rfl
  generalize (d.updSchedule fun s => { s with frame := s.frame + 1#32 }) = e at h1 hs ⊢
  obtain ⟨h2, h3⟩ := evaluateFrame_spec (swapIfPending_base h1)
    ((Joined.refl d).of_segs fun g => (swapIfPending_seg e g).trans (hs g))
  generalize evaluateFrame (swapIfPending e) = t at h2 h3 ⊢
  refine ⟨h2.updSchedule _ fun bank _ _ => ?_, h3.of_segs fun _ => rfl⟩
  cases bank <;> rfl

/-! ## All events -/

theorem workLaw_event (c : Instr) (f : Device → Device) (d : Device) (hf : eventAction c = some f) (h : WorkLaw d) : WorkLaw (f d) := by
  cases c <;> simp only [eventAction, Option.some.injEq, reduceCtorEq] at hf <;> subst hf
  case assemblyExpiry => exact assemblyExpires_workLaw h _
  case deadlineExpiry => exact deadlineExpires_workLaw h _
  case conversationStart => exact (startConversation_served h _).symm ▸ h
  case sweepStart => exact (startSweep_served h _).symm ▸ h
  case transactionEnd => exact transactionEnds_workLaw h _ _ _
  case arbLost => exact losesArbitration_workLaw h _ _
  case retryGapExpiry => exact retryGapExpires_workLaw h _
  case intervalExpiry => exact intervalExpires_workLaw h _
  case pauseExpiry => exact pauseExpires_workLaw h _
  case clockStall => exact stalls_workLaw h _ _
  case busFault => exact faults_workLaw h _ _
  case receptionStall => exact receptionStalls_workLaw h _
  case recoverySuccess => exact recoverySucceeds_workLaw h _ _
  case recoveryFailure => exact recoveryFails_workLaw h _ _
  case busStartSeen => exact startSeen_workLaw h _
  case busStopSeen => exact stopSeen_workLaw h _
  case busFreeTimeExpiry => exact freeTimeExpires_workLaw h _
  case busIdleTimeout => exact idleTimeout_workLaw h _
  case addressByteJudged => exact h.of_receptionOnly (addressSeen_receptionOnly _ _ d)
  case receivedDataByte => exact h.of_receptionOnly (takeDataByte_receptionOnly _ _ d)
  case alrFall => exact alrFalls_workLaw h _
  case alrRise => exact alrRises_workLaw h _
  case sweepHoldoffExpiry => exact holdoffExpires_workLaw h _
  case frameBoundary =>
    obtain ⟨h1, h2⟩ := frameBoundary_spec h
    have hs := h.selectAfterJoins h1 h2
    dsimp only
    split
    · exact hs
    · exact h

end Sys2Proof.Machine
end

section
/-! PROOFS. Every request keeps the work law, and with it every step. -/

namespace Sys2Proof.Machine

variable {held : Option TargetId} {loose : Option SlotId} {d t : Device}

/-! ## The Target Directory (01) -/

theorem requestAddTarget_workLaw (body : List Byte) (h : WorkLaw d) : WorkLaw (requestAddTarget body d).2 := by
  unfold requestAddTarget
  split
  · split
    · dsimp only
      split
      · exact h
      · split
        · exact h
        · split
          · exact h
          · next i hi =>
            have hv : (d.entry i).presence = .vacant := by simpa using List.find?_some hi
            exact h.of_same_segs (h.base.replaceEntry (h.vacant i hv) rfl (by simp)) fun _ => rfl
    · exact h
  · exact h

theorem requestModifyTarget_workLaw (body : List Byte) (h : WorkLaw d) : WorkLaw (requestModifyTarget body d).2 := by
  unfold requestModifyTarget
  split
  · exact h
  · split
    · exact h
    · next hv =>
      split
      · exact h
      · split
        · exact h
        · exact h.of_same_segs (h.base.updEntry_same _ _ rfl rfl hv id) fun _ => rfl

/-- An entry that nothing refers to becomes VACANT (01 R15, R17). -/
theorem WorkLaw.vacate (h : WorkLaw d) {i : TargetId} (h0 : (d.entry i).refs = 0) : WorkLaw (d.updEntry i fun _ => .vacant) :=
  h.of_same_segs (h.base.replaceEntry h0 rfl (by decide)) fun _ => rfl

theorem pollNames_some (e : PollEntry) (i : TargetId) : (pollNames (some e) i).toNat = owed (some e.config.target) i := by
  simp only [pollNames, owed, Option.any_some, Option.some.injEq]
  rfl

/-! ### The shadow bank's references (07 R126) -/

theorem releaseRef_schedule (i : TargetId) (d : Device) : (releaseRef i d).schedule = d.schedule := by
  unfold releaseRef
  dsimp only
  split <;> rfl

theorem releaseRef_poll (i : TargetId) (d : Device) (bank : Bank) (k : PollId) : (releaseRef i d).poll bank k = d.poll bank k := by
  simp only [Device.poll, releaseRef_schedule]

theorem clearShadowEntry_slotsKept (k : PollId) (d : Device) : SlotsKept d (clearShadowEntry k d) := by
  unfold clearShadowEntry
  split
  · exact .refl d
  · exact (setPoll_slotsKept ..).trans (releaseRef_slotsKept ..)

theorem writeShadowEntry_slotsKept (k : PollId) (c : PollConfig) (d : Device) : SlotsKept d (writeShadowEntry k c d) :=
  (clearShadowEntry_slotsKept k d).trans ((setPoll_slotsKept ..).trans (raiseRef_slotsKept ..))

/-- The name of the shadow bank stays. -/
theorem SlotsKept.shadow (h : SlotsKept d t) : t.schedule.shadow = d.schedule.shadow := by simp only [Schedule.shadow, h.active]

theorem clearShadowEntry_poll (k : PollId) (d : Device) (bank : Bank) (j : PollId) :
    (clearShadowEntry k d).poll bank j = if d.schedule.shadow = bank ∧ k = j then none else d.poll bank j := by
  unfold clearShadowEntry
  split
  · next e =>
    split
    · next hb => rw [← hb.1, ← hb.2, e]
    · rfl
  · rw [releaseRef_poll, setPoll_poll]

theorem WorkBase.clearShadowEntry (h : WorkBase none loose d) (k : PollId) : WorkBase none loose (clearShadowEntry k d) := by
  unfold Machine.clearShadowEntry
  split
  · exact h
  · next e he =>
    refine (h.setPoll (held' := some e.config.target) _ k none fun i => ?_).releaseRef
    rw [he, pollNames_some]
    simp [pollNames]

/-- A shadow entry may be written for a target that stands when the old one is gone (07 R132, R134). -/
theorem WorkBase.writeShadowEntry (h : WorkBase none loose d) (k : PollId) (c : PollConfig)
    (hv : ((Machine.clearShadowEntry k d).entry c.target).presence ≠ .vacant) : WorkBase none loose (writeShadowEntry k c d) := by
  have h1 := (h.clearShadowEntry k).raiseRef hv
  refine h1.setPoll (Machine.clearShadowEntry k d).schedule.shadow k (some (.fresh c)) fun i => ?_
  have hp : (Machine.raiseRef c.target (Machine.clearShadowEntry k d)).poll (Machine.clearShadowEntry k d).schedule.shadow k = none := by
    show (Machine.clearShadowEntry k d).poll _ k = none
    rw [(clearShadowEntry_slotsKept k d).shadow, clearShadowEntry_poll, if_pos ⟨rfl, rfl⟩]
  rw [hp, pollNames_some]
  simp [pollNames, PollEntry.fresh]

theorem WorkLaw.clearShadowEntry (h : WorkLaw d) (k : PollId) : WorkLaw (clearShadowEntry k d) :=
  h.of_same_segs (h.base.clearShadowEntry k) (clearShadowEntry_slotsKept k d).seg

theorem WorkLaw.clearShadow (h : WorkLaw d) : WorkLaw (clearShadow d) :=
  foldl_keeps _ (fun _ k hd => hd.clearShadowEntry k) _ h

/-! ### The forced withdrawal (01 R16, R17) -/

theorem WorkLaw.withdrawWaiting (h : WorkLaw d) (i : TargetId) (k : SlotId) : WorkLaw (withdrawWaiting i d k) := by
  unfold Machine.withdrawWaiting
  split
  · split <;> rename_i hs
    · exact h.finish_assembling hs _
    · exact h.endQueued hs _
    · exact h
    · exact h
    · exact h
  · exact h

/-- Stop requests set on RUNNING conversations, one after the other. -/
theorem WorkLaw.setStops (h : WorkLaw d) (l : List SlotId) (c : StopCause) (hr : ∀ k ∈ l, (d.slot k).state = .running) :
    WorkLaw (l.foldl (fun d k => Machine.setStop k c d) d) := by
  induction l generalizing d with
  | nil => exact h
  | cons k l ih =>
    refine ih (h.setStop (hr k (by simp)) c) fun j hj => ?_
    unfold Machine.setStop
    rw [updSlot_slot]
    have := hr j (by simp [hj])
    split <;> exact this

theorem mem_runningOn {i : TargetId} {k : SlotId} :
    k ∈ runningOn i d ↔ (d.slot k).state = .running ∧ (d.slot k).conv.target = .directory i := by simp [runningOn]

theorem withdrawForced_workLaw (h : WorkLaw d) (i : TargetId) : WorkLaw (withdrawForced i d).2 := by
  unfold withdrawForced
  split
  · exact h
  · split
    · exact h
    · dsimp only
      generalize hd1 : (List.finRange 48).foldl (fun d k =>
          if (d.poll d.schedule.shadow k).any fun e => e.config.target == i then clearShadowEntry k d else d) d = d1
      have h1 : WorkLaw d1 := hd1 ▸ foldl_keeps _ (fun d k hd => by
        split
        · exact hd.clearShadowEntry k
        · exact hd) _ h
      generalize hd2 : (List.finRange 32).foldl (withdrawWaiting i) d1 = d2
      have h2 : WorkLaw d2 := hd2 ▸ foldl_keeps _ (fun d k hd => hd.withdrawWaiting i k) _ h1
      generalize hd3 : (runningOn i d2).foldl (fun d k => setStop k .withdrawn d) d2 = d3
      have h3 : WorkLaw d3 := hd3 ▸ h2.setStops _ _ fun k hk => (mem_runningOn.mp hk).1
      split
      · next h0 => exact h3.vacate h0
      · next h0 =>
        refine foldl_keeps _ (fun d k hd => hd.takeStopInWait k) _ (h3.of_same_segs (h3.base.updEntry i _ rfl (fun _ _ => rfl) ?_ ?_ ?_)
          fun _ => rfl)
        · exact fun e => by simp at e
        · exact fun _ => h0
        · exact Or.inl rfl

theorem requestWithdrawTarget_workLaw (body : List Byte) (h : WorkLaw d) : WorkLaw (requestWithdrawTarget body d).2 := by
  unfold requestWithdrawTarget
  split
  · exact h
  · split
    · exact h
    · split
      · exact h
      · split
        · exact h
        · split
          · unfold withdrawNormal
            split
            · next h0 => exact h.vacate h0
            · exact h
          · exact withdrawForced_workLaw h _

/-! ## Segments (04, 03) -/

/-- Queue, engine work and HELD of a segment are as they were. -/
structure QueueKept (g g' : Segment) : Prop where
  urgent : g'.urgent = g.urgent
  normal : g'.normal = g.normal
  work : g'.work = g.work
  streak : g'.streak = g.streak
  held : g'.held = g.held

theorem configure_spec (c : SegConfig) (g : Segment) :
    QueueKept g (g.configure c) ∧ (g.configure c).state = (if c.enabled then (if g.state = .off then .idle else g.state) else .off) ∧
      (c.enabled = true → g.state = .off → (g.configure c).owner = .taken) := by
  unfold Segment.configure
  extract_lets g1 g2 g3 g4
  have h2 : QueueKept g g2 ∧ g2.state = g.state := by
    simp only [g2]
    split <;> exact ⟨⟨rfl, rfl, rfl, rfl, rfl⟩, rfl⟩
  have h3 : QueueKept g g3 ∧ g3.state = (if c.enabled then (if g.state = .off then .idle else g.state) else .off) ∧
      (c.enabled = true → g.state = .off → g3.owner = .taken) := by
    obtain ⟨⟨a1, a2, a3, a4, a5⟩, a6⟩ := h2
    simp only [g3, a6]
    split
    · split
      · exact ⟨⟨a1, a2, a3, a4, a5⟩, rfl, fun _ _ => rfl⟩
      · next hn => exact ⟨⟨a1, a2, a3, a4, a5⟩, a6, fun _ e => absurd e hn⟩
    · next hn => exact ⟨⟨a1, a2, a3, a4, a5⟩, rfl, fun e => absurd e hn⟩
  have h4 : QueueKept g3 g4 ∧ g4.state = g3.state ∧ g4.owner = g3.owner := by
    simp only [g4]
    split <;> exact ⟨⟨rfl, rfl, rfl, rfl, rfl⟩, rfl, rfl⟩
  obtain ⟨⟨a1, a2, a3, a4, a5⟩, a6, a7⟩ := h3
  obtain ⟨⟨b1, b2, b3, b4, b5⟩, b6, b7⟩ := h4
  obtain ⟨c1, c2, c3, c4, c5, c6, c7⟩ := alrFell_rest g4
  split
  · exact ⟨⟨c1.trans (b1.trans a1), c2.trans (b2.trans a2), c3.trans (b3.trans a3), c4.trans (b4.trans a4), c7.trans (b5.trans a5)⟩,
      c5.trans (b6.trans a6), fun e1 e2 => c6.trans (b7.trans (a7 e1 e2))⟩
  · exact ⟨⟨b1.trans a1, b2.trans a2, b3.trans a3, b4.trans a4, b5.trans a5⟩, b6.trans a6, fun e1 e2 => b7.trans (a7 e1 e2)⟩

theorem configurable_cases {g : Segment} (h : g.configurable = true) :
    g.state = .off ∨ g.held = true ∧ (g.state = .idle ∨ g.state = .blocked) := by
  simp only [Segment.configurable, Bool.and_eq_true, Bool.or_eq_true, beq_iff_eq] at h
  exact h.1

theorem requestConfigureSegment_workLaw (body : List Byte) (h : WorkLaw d) : WorkLaw (requestConfigureSegment body d).2 := by
  refine onSegment_keeps (fun g => ?_) h
  unfold configureSegment
  split
  · exact h
  · next c _ =>
    dsimp only
    split
    · next hc =>
      split
      · split
        · exact h
        · obtain ⟨hq, hs, ho⟩ := configure_spec c (d.seg g)
          have hna : (d.seg g).state ≠ .active := by
            obtain e | ⟨-, e | e⟩ := configurable_cases hc <;> simp [e]
          refine h.updSeg g _ (.of_state hq.urgent hq.normal hq.work hq.streak hna ?_) (.of_not_ready ?_)
          · rw [hs]
            split
            · split
              · decide
              · exact hna
            · decide
          · cases he : c.enabled
            · exact not_ready_of_state (by rw [hs, he]; simp)
            · obtain e | ⟨e, -⟩ := configurable_cases hc
              · exact not_ready_of_taken (ho he e)
              · simp [Segment.ready, hq.held, e]
      · exact h
    · exact h

theorem requestHoldSegment_workLaw (body : List Byte) (h : WorkLaw d) : WorkLaw (requestHoldSegment body d).2 :=
  onSegment_keeps (fun g => h.updSeg g _ (.of_eq rfl rfl rfl rfl rfl) (.of_not_ready (by simp [Segment.ready]))) h

theorem requestReleaseSegment_workLaw (body : List Byte) (h : WorkLaw d) : WorkLaw (requestReleaseSegment body d).2 := by
  refine onSegment_keeps (fun g => ?_) h
  dsimp only
  split
  · exact h.select (h.base.updSeg_same g _ (.of_eq rfl rfl rfl rfl rfl)) fun j hj => updSeg_seg_other _ _ hj
  · exact h

theorem requestReadFault_workLaw (body : List Byte) (h : WorkLaw d) : WorkLaw (requestReadFault body d).2 := by
  refine onSegment_keeps (fun g => ?_) h
  dsimp only
  split
  · exact h.updSeg g _ (.of_eq rfl rfl rfl rfl rfl) fun a b => ⟨a, b⟩
  · exact h

theorem abortWork_spec (h : WorkBase none none d) (g : SegId) :
    WorkBase none none (abortWork g d) ∧ ((abortWork g d).seg g).work = .nothing ∧ ∀ j, j ≠ g → (abortWork g d).seg j = d.seg j := by
  unfold abortWork
  split <;> rename_i hw
  · exact ⟨h, hw, fun _ _ => rfl⟩
  · unfold endSweep
    exact ⟨endSweep_base h (by rw [hw]; rfl), by rw [updSeg_seg_same], fun j hj => updSeg_seg_other _ _ hj⟩
  · next hd ctx =>
    dsimp only
    generalize he : addressEvent _ _ d = e
    have hs : ∀ j, e.seg j = d.seg j := fun j => by rw [← he, addressEvent_seg]
    have hm := endConversation_move g hd ctx .segmentReset (some ctx.completed) e
    exact ⟨hm.base (by rw [hs, hw]; rfl) (he ▸ h.addressEvent _ _), endConversation_work .., fun j hj => (hm.other j hj).trans (hs j)⟩

theorem requestResetSegment_workLaw (body : List Byte) (h : WorkLaw d) : WorkLaw (requestResetSegment body d).2 := by
  refine onSegment_keeps (fun g => ?_) h
  dsimp only
  split
  · exact h
  · obtain ⟨h1, h2, h3⟩ := abortWork_spec h.base g
    refine h.recovering (g := g) (h1.updSeg_same g (fun x => { x with fault := none }.disarm) (.of_eq rfl rfl rfl rfl rfl)) ?_
      (fun j hj => ?_) _
    · rw [updSeg_seg_same]
      exact h2
    · rw [updSeg_seg_other _ _ hj, h3 j hj]

theorem takeNote_workLaw (h : WorkLaw d) (n : Option WireNote) : WorkLaw (takeNote n d) := by
  unfold takeNote
  split
  · exact h
  · next w =>
    split
    · have h1 : WorkLaw (ownStart w.seg w.pos d) := by
        unfold ownStart
        split
        · exact h.updSeg _ _ (taken_same _) (.of_not_ready (not_ready_of_taken rfl))
        · exact h
      have hm : ∀ x : Work, (x.moveTo w.pos w.received).runs = x.runs ∧ (x.moveTo w.pos w.received = .nothing ↔ x = .nothing) := fun x => by
        cases x with
        | nothing => exact ⟨rfl, Iff.rfl⟩
        | sweep p => exact ⟨rfl, by simp [Work.moveTo]⟩
        | conversation hd ctx =>
          unfold Work.moveTo
          dsimp only
          split <;> exact ⟨rfl, by simp⟩
      exact h1.updSeg _ _ ⟨fun c => by cases c <;> rfl, (hm _).1, fun e => e.trans (not_congr (hm _).2.symm), Nat.le_refl _⟩
        fun a b => ⟨a, b⟩
    · exact h

/-! ### FLUSH_SEGMENT (03 R55) -/

/-- The heads of a segment's lists, one after the other, are conversations QUEUED there. -/
theorem WorkBase.queued_of_mem (h : WorkBase none none d) {g : SegId} {hd : Handle} (hm : hd ∈ (d.seg g).urgent ++ (d.seg g).normal) :
    hd = d.handle hd.slot ∧ (d.slot hd.slot).state = .queued ∧ d.home hd.slot = g := by
  have key : ∀ c, hd ∈ (d.seg g).waiting c → hd = d.handle hd.slot ∧ (d.slot hd.slot).state = .queued ∧ d.home hd.slot = g := by
    intro c hc
    have hq := h.queued g c hd
    by_contra hn
    rw [if_neg fun x => hn ⟨x.2.1, x.2.2.1, x.2.2.2.1⟩] at hq
    exact absurd hc (List.count_eq_zero.mp hq)
  obtain hu | hn := List.mem_append.mp hm
  · exact key .urgent hu
  · exact key .normal hn

/-- A handle stands in one of the lists alone. -/
theorem WorkBase.nodup_lists (h : WorkBase none none d) (g : SegId) (hd : Handle) :
    ((d.seg g).urgent ++ (d.seg g).normal).count hd ≤ 1 := by
  have hu : (d.seg g).urgent.count hd = _ := h.queued g .urgent hd
  have hn : (d.seg g).normal.count hd = _ := h.queued g .normal hd
  rw [List.count_append, hu, hn]
  split
  · next e1 =>
    split
    · next e2 => exact absurd (e1.2.2.2.2.symm.trans e2.2.2.2.2) (by decide)
    · omega
  · split <;> omega

/-- Taking a list's members out of it one by one, in order, while each ends. -/
theorem flush_spec (h : WorkBase none none d) (g : SegId) (l : List Handle) (hl : l = (d.seg g).urgent ++ (d.seg g).normal) :
    ∃ t, l.foldl (fun d h => finish h.slot (.unstarted .cancelled) (d.updSeg g (Segment.dequeue h))) d = t ∧ WorkBase none none t ∧
      (∀ j, j ≠ g → t.seg j = d.seg j) ∧ ListsOnly (d.seg g) (t.seg g) ∧ (t.seg g).urgent = [] ∧ (t.seg g).normal = [] := by
  induction l generalizing d with
  | nil =>
    obtain ⟨hu, hn⟩ := List.append_eq_nil_iff.mp hl.symm
    exact ⟨d, rfl, h, fun _ _ => rfl, .refl _, hu, hn⟩
  | cons hd l ih =>
    obtain ⟨hh, hq, hhome⟩ := h.queued_of_mem (hl ▸ List.mem_cons_self)
    have heq : finish hd.slot (.unstarted .cancelled) (d.updSeg g (Segment.dequeue hd)) = endQueued hd.slot .cancelled d := by
      show _ = finish _ _ (d.updSeg (d.home hd.slot) (Segment.dequeue (d.handle hd.slot)))
      rw [hhome, ← hh]
    have hseg : ∀ j, (endQueued hd.slot .cancelled d).seg j = (d.updSeg g (Segment.dequeue hd)).seg j := fun j => by
      rw [← heq, finish_seg]
    have hlists : l = ((endQueued hd.slot .cancelled d).seg g).urgent ++ ((endQueued hd.slot .cancelled d).seg g).normal := by
      have hc := h.nodup_lists g hd
      rw [← hl, List.count_cons_self] at hc
      have hnot : hd ∉ l := List.count_eq_zero.mp (by omega)
      rw [hseg, updSeg_seg_same]
      show l = (d.seg g).urgent.erase hd ++ (d.seg g).normal.erase hd
      cases hu : (d.seg g).urgent with
      | nil =>
        rw [hu, List.nil_append] at hl
        simp [← hl]
      | cons u us =>
        rw [hu, List.cons_append, List.cons.injEq] at hl
        obtain ⟨rfl, rfl⟩ := hl
        rw [List.erase_cons_head, List.erase_of_not_mem fun e => hnot (List.mem_append.mpr (Or.inr e))]
    obtain ⟨t, ht, hb, hother, honly, hu, hn⟩ := ih (h.endQueued hq _) hlists
    refine ⟨t, ?_, hb, fun j hj => ?_, ?_, hu, hn⟩
    · rw [List.foldl_cons, heq, ht]
    · rw [hother j hj, hseg, updSeg_seg_other _ _ hj]
    · refine ListsOnly.trans ?_ honly
      rw [hseg, updSeg_seg_same]
      rfl

theorem requestFlushSegment_workLaw (body : List Byte) (h : WorkLaw d) : WorkLaw (requestFlushSegment body d).2 := by
  refine onSegment_keeps (fun g => ?_) h
  obtain ⟨t, ht, hb, hother, honly, hu, hn⟩ := flush_spec h.base g _ rfl
  dsimp only
  rw [ht]
  obtain ⟨-, hstate, howner, hheld, hsweep⟩ := honly.rest
  refine h.of_seg (hb.updSeg_same g _ ⟨fun c => ?_, rfl, id, Nat.zero_le _⟩) (fun j hj => ?_) (g := g) ?_
  · cases c
    · exact hn.symm
    · exact hu.symm
  · rw [updSeg_seg_other _ _ hj, hother j hj]
  · rw [updSeg_seg_same]
    refine fun hr ho => ⟨?_, offers_iff.mpr (Or.inl ?_)⟩
    · simpa [Segment.ready, hstate, howner, hheld] using hr
    · simpa [offers_iff, hsweep] using ho

/-! ## The Conversation Pool (02) -/

theorem hostSlot_some {k : SlotId} (h : hostSlot d = some k) : (d.slot k).state = .free ∧ Machine.hostHeld d < Config.hostSlots := by
  unfold hostSlot at h
  split at h
  · next hh => exact ⟨lowestFree_free h, hh⟩
  · simp at h

theorem targetRefusal_none {a : Target} (h : targetRefusal a d = none) (i : TargetId) (hi : a = .directory i) :
    (d.entry i).presence ≠ .vacant := by
  subst hi
  intro e
  simp [targetRefusal, e] at h

theorem requestOpenConversation_workLaw (body : List Byte) (h : WorkLaw d) : WorkLaw (requestOpenConversation body d).2 := by
  unfold requestOpenConversation
  split
  · exact h
  · next hdr _ =>
    split
    · exact h
    · next k hk =>
      obtain ⟨hf, hh⟩ := hostSlot_some hk
      split
      · exact h
      · next ht =>
        have h1 := h.base.placeConversation hf (st := .assembling)
          (c := { hdr.conv [] with assemblyTimer := some Config.assemblyIdle }) (fun _ => rfl)
          (fun _ => ⟨fun _ => rfl, fun e => by simp [Header.conv] at e, fun e => by simp at e⟩) (fun _ => hh)
          (fun i hi => targetRefusal_none ht i hi)
        have hs := placeConversation_slot k .assembling { hdr.conv [] with assemblyTimer := some Config.assemblyIdle } d
        exact h.of_same_segs ((WorkBase.loose_iff (by rw [hs]; simp) (by rw [hs]; simp)).mp h1) fun g => placeConversation_seg ..

theorem requestAppendSteps_workLaw (body : List Byte) (h : WorkLaw d) : WorkLaw (requestAppendSteps body d).2 := by
  refine onConversation_keeps (fun k => ?_) h
  unfold appendSteps
  split
  · next ha =>
    split
    · exact h
    · dsimp only
      split
      · split
        · exact h.of_same_segs (h.base.updSlot_same k _ rfl rfl rfl rfl rfl
            ⟨fun _ => ha, h.base.stops k, fun e => by simp [ha] at e⟩) fun _ => rfl
        · exact h
      · exact h
  · exact h

/-- A conversation on its way that is queued may lead to a selection (03 R45, R47). -/
theorem WorkLaw.queueAndSelect (h : WorkLaw d) {k : SlotId} (hb : WorkBase none (some k) t) (hs : ∀ g, t.seg g = d.seg g)
    (hl : (t.slot k).live = true) (hst : (t.slot k).conv.steps ≠ []) (hsp : (t.slot k).conv.stop = none) :
    WorkLaw (makeSelection (t.home k) (queueConversation k t)) := by
  refine h.select (hb.queueConversation hl hst hsp) fun j hj => ?_
  show ((t.updSlot k _).updSeg (t.home k) _).seg j = d.seg j
  rw [updSeg_seg_other _ _ hj, updSlot_seg_frame, hs j]

theorem requestSubmitConversation_workLaw (body : List Byte) (h : WorkLaw d) : WorkLaw (requestSubmitConversation body d).2 := by
  refine onConversation_keeps (fun k => ?_) h
  unfold submitConversation
  dsimp only
  split
  · next ha =>
    split
    · exact h
    · next hne =>
      split
      · exact h
      · split
        · exact h
        · refine h.queueAndSelect (k := k) ((WorkBase.loose_iff (by simp [ha]) (by simp [ha])).mpr h.base) (fun _ => rfl)
            (live_of_assembling ha) hne ?_
          cases e : (d.slot k).conv.stop
          · rfl
          · have := h.stops k (by simp [e])
            simp [ha] at this
  · exact h

theorem runChecked_workLaw (hdr : Header) (steps : List Step) (hne : steps ≠ []) (h : WorkLaw d) : WorkLaw (runChecked hdr steps d).2 := by
  unfold runChecked
  split
  · exact h
  · next k hk =>
    obtain ⟨hf, hh⟩ := hostSlot_some hk
    split
    · exact h
    · next ht =>
      split
      · exact h
      · have h1 := h.base.placeConversation hf (st := .queued) (c := hdr.conv steps) (fun _ => rfl)
          (fun _ => ⟨fun e => by simp [Header.conv] at e, fun e => by simp [Header.conv] at e, fun _ => hne⟩) (fun _ => hh)
          (fun i hi => targetRefusal_none ht i hi)
        have hs := placeConversation_slot k .queued (hdr.conv steps) d
        have hhome : (placeConversation k .queued (hdr.conv steps) d).home k = targetSegment d hdr.target := by
          simp only [Device.home, hs]
          show targetSegment (raiseTarget hdr.target _) hdr.target = _
          cases hdr.target with
          | raw => rfl
          | directory i =>
            show ((Device.updEntry i _ _).entry i).segment = _
            rw [updEntry_entry_same]
            rfl
        have h2 := h.queueAndSelect (k := k) h1 (fun g => placeConversation_seg ..) (by rw [hs]; rfl) (by rw [hs]; exact hne)
          (by rw [hs]; rfl)
        rw [hhome] at h2
        exact h2

theorem requestRunConversation_workLaw (body : List Byte) (h : WorkLaw d) : WorkLaw (requestRunConversation body d).2 := by
  unfold requestRunConversation
  split
  · split
    · split
      · split
        · exact h
        · next hne =>
          split
          · exact h
          · exact runChecked_workLaw _ _ hne h
      · exact h
    · exact h
  · exact h

theorem requestCancelConversation_workLaw (body : List Byte) (h : WorkLaw d) : WorkLaw (requestCancelConversation body d).2 := by
  refine onConversation_keeps (fun k => ?_) h
  unfold cancelConversation
  split <;> rename_i hs
  · exact h.dropAssembling hs
  · exact h.endQueued hs _
  · exact (h.setStop hs _).takeStopInWait k
  · exact h
  · exact h

theorem requestFetchResult_workLaw (body : List Byte) (h : WorkLaw d) : WorkLaw (requestFetchResult body d).2 := by
  refine onConversation_keeps (fun k => ?_) h
  unfold fetchResult
  split
  · split
    · next hs _ =>
      dsimp only
      split
      · have h1 := ((WorkBase.loose_iff (by simp [hs]) (by simp [hs])).mpr h.base).freeSlot (k := k) (by simp [Slot.live, hs])
        exact h.of_same_segs ((WorkBase.loose_iff (by simp [freeSlot]) (by simp [freeSlot])).mp h1) fun _ => rfl
      · exact h
    · exact h
  · exact h

/-! ## The Poll Scheduler (07) -/

theorem WorkLaw.updSchedule (h : WorkLaw d) (f : Schedule → Schedule)
    (hf : ∀ bank k i, pollNames (((f d.schedule).bank bank).get k) i = pollNames ((d.schedule.bank bank).get k) i) :
    WorkLaw (d.updSchedule f) := h.of_same_segs (h.base.updSchedule f hf) fun _ => rfl

theorem startSchedule_spec (h : WorkLaw d) : WorkBase none none (startSchedule d) ∧ Joined d (startSchedule d) := by
  unfold startSchedule
  dsimp only
  have h1 : WorkBase none none (d.updSchedule fun s => { s with frame := 0#32, running := true }) :=
    h.base.updSchedule _ fun bank _ _ => by cases bank <;> rfl
  have hs : ∀ g, (d.updSchedule fun s => { s with frame := 0#32, running := true }).seg g = d.seg g := fun _ => rfl
  generalize (d.updSchedule fun s => { s with frame := 0#32, running := true }) = e at h1 hs ⊢
  obtain ⟨h2, h3⟩ := evaluateFrame_spec h1 ((Joined.refl d).of_segs hs)
  generalize evaluateFrame e = t at h2 h3 ⊢
  refine ⟨h2.updSchedule _ fun bank _ _ => ?_, h3.of_segs fun _ => rfl⟩
  cases bank <;> rfl

theorem requestStartSchedule_workLaw (body : List Byte) (h : WorkLaw d) : WorkLaw (requestStartSchedule body d).2 := by
  obtain ⟨h1, h2⟩ := startSchedule_spec h
  have hs := h.selectAfterJoins h1 h2
  unfold requestStartSchedule
  split
  · exact h
  · dsimp only
    exact hs

theorem requestStopSchedule_workLaw (body : List Byte) (h : WorkLaw d) : WorkLaw (requestStopSchedule body d).2 := by
  unfold requestStopSchedule
  dsimp only
  split
  · have h1 : WorkLaw (d.updSchedule fun s => { s with timer := none, running := false }) :=
      h.updSchedule _ fun bank _ _ => by cases bank <;> rfl
    exact h1.of_same_segs (swapIfPending_base h1.base) fun g => swapIfPending_seg _ g
  · exact h

theorem requestSetFrame_workLaw (body : List Byte) (h : WorkLaw d) : WorkLaw (requestSetFrame body d).2 := by
  unfold requestSetFrame
  split
  · split
    · exact h
    · dsimp only
      refine h.updSchedule _ fun bank _ _ => ?_
      cases bank <;> rfl
  · exact h

theorem requestCommitBank_workLaw (body : List Byte) (h : WorkLaw d) : WorkLaw (requestCommitBank body d).2 := by
  unfold requestCommitBank
  split
  · split
    · exact h
    · dsimp only
      refine h.updSchedule _ fun bank _ _ => ?_
      cases bank <;> rfl
  · exact h.of_same_segs (swapBanks_base h.base) fun _ => rfl

theorem requestPutPoll_workLaw (body : List Byte) (h : WorkLaw d) : WorkLaw (requestPutPoll body d).2 := by
  unfold requestPutPoll
  split
  · next k c _ _ =>
    split
    · exact h
    · split
      · exact h
      · next hv =>
        split
        · exact h
        · next hw =>
          refine h.of_same_segs (h.base.writeShadowEntry k c ?_) (writeShadowEntry_slotsKept ..).seg
          rw [clearShadowEntry_presence _ _ hw]
          exact hv
  · exact h

theorem requestClearPoll_workLaw (body : List Byte) (h : WorkLaw d) : WorkLaw (requestClearPoll body d).2 := by
  unfold requestClearPoll
  split
  · exact h
  · split
    · exact h
    · exact h.clearShadowEntry _

theorem requestClearShadow_workLaw (body : List Byte) (h : WorkLaw d) : WorkLaw (requestClearShadow body d).2 := by
  have hc := h.clearShadow
  unfold requestClearShadow
  split
  · exact h
  · dsimp only
    exact hc

/-- The target of an active entry stands when the shadow entry at its index has gone: the active entry still names it. -/
theorem copyEntry_workLaw (h : WorkLaw d) (k : PollId) : WorkLaw (copyEntry d k) := by
  unfold copyEntry
  split
  · exact h
  · next e he =>
    refine h.of_same_segs (h.base.writeShadowEntry k _ fun hv => ?_) (writeShadowEntry_slotsKept ..).seg
    have hb := h.base.clearShadowEntry k
    have he' : (Machine.clearShadowEntry k d).poll d.schedule.active k = some e := by
      rw [clearShadowEntry_poll, if_neg fun x => by simp [Schedule.shadow] at x, he]
    have h1 := hb.vacant _ hv
    have h2 := hb.counted e.config.target
    have h3 := references_pos_of_poll he'
    omega

theorem requestCopyActive_workLaw (body : List Byte) (h : WorkLaw d) : WorkLaw (requestCopyActive body d).2 := by
  have hc : WorkLaw ((List.finRange 48).foldl copyEntry (clearShadow d)) :=
    foldl_keeps (P := WorkLaw) (d := clearShadow d) copyEntry (fun _ k hd => copyEntry_workLaw hd k) _ h.clearShadow
  unfold requestCopyActive
  split
  · exact h
  · dsimp only
    exact hc

/-! ## The obligation -/

theorem workLaw_owner (k : RequestKind) (body : List Byte) (d : Device) (h : WorkLaw d) : WorkLaw (owner k body d).2 := by
  have same : ∀ {t : Device}, t.directory = d.directory → t.pool = d.pool → t.segments = d.segments → t.schedule = d.schedule →
      WorkLaw t := fun e1 e2 e3 e4 =>
    h.of_parts (fun i => congrArg (Vector.get · i) e1) (fun i => congrArg (Vector.get · i) e2) (fun i => congrArg (Vector.get · i) e3)
      fun _ _ _ => by simp only [Device.poll, e4]
  cases k
  case ping => exact h
  case restart => exact same rfl rfl rfl rfl
  case linkStatus =>
    show WorkLaw (requestLinkStatus body d).2
    unfold requestLinkStatus
    dsimp only
    split <;> exact same rfl rfl rfl rfl
  case setAttention =>
    show WorkLaw (requestSetAttention body d).2
    unfold requestSetAttention
    split <;> exact same rfl rfl rfl rfl
  case setReportMask =>
    show WorkLaw (requestSetReportMask body d).2
    unfold requestSetReportMask
    dsimp only
    split <;> exact same rfl rfl rfl rfl
  case addTarget => exact requestAddTarget_workLaw body h
  case modifyTarget => exact requestModifyTarget_workLaw body h
  case withdrawTarget => exact requestWithdrawTarget_workLaw body h
  case readTarget => exact (requestReadTarget_keeps body).symm ▸ h
  case listTargets => exact (requestListTargets_keeps body).symm ▸ h
  case configureSegment => exact requestConfigureSegment_workLaw body h
  case segmentStatus => exact (requestSegmentStatus_keeps body).symm ▸ h
  case holdSegment => exact requestHoldSegment_workLaw body h
  case releaseSegment => exact requestReleaseSegment_workLaw body h
  case resetSegment => exact requestResetSegment_workLaw body h
  case flushSegment => exact requestFlushSegment_workLaw body h
  case readFault => exact requestReadFault_workLaw body h
  case openConversation => exact requestOpenConversation_workLaw body h
  case appendSteps => exact requestAppendSteps_workLaw body h
  case submitConversation => exact requestSubmitConversation_workLaw body h
  case runConversation => exact requestRunConversation_workLaw body h
  case cancelConversation => exact requestCancelConversation_workLaw body h
  case conversationStatus => exact (requestConversationStatus_keeps body).symm ▸ h
  case fetchResult => exact requestFetchResult_workLaw body h
  case setFrame => exact requestSetFrame_workLaw body h
  case startSchedule => exact requestStartSchedule_workLaw body h
  case stopSchedule => exact requestStopSchedule_workLaw body h
  case putPoll => exact requestPutPoll_workLaw body h
  case clearPoll => exact requestClearPoll_workLaw body h
  case clearShadow => exact requestClearShadow_workLaw body h
  case copyActive => exact requestCopyActive_workLaw body h
  case commitBank => exact requestCommitBank_workLaw body h
  case readPoll => exact (requestReadPoll_keeps body).symm ▸ h
  case fetchInbox =>
    show WorkLaw (requestFetchInbox body d).2
    unfold requestFetchInbox
    split <;> exact same rfl rfl rfl rfl
  case inboxStatus =>
    show WorkLaw (requestInboxStatus body d).2
    unfold requestInboxStatus
    dsimp only
    split <;> exact same rfl rfl rfl rfl

/-! ### The base at reset -/

theorem deviceReset_slot (q : ReportQueue) (d : Device) (k : SlotId) : (deviceReset q d).slot k = .initial := replicate_get ..

theorem deviceReset_seg (q : ReportQueue) (d : Device) (g : SegId) : (deviceReset q d).seg g = .initial (d.seg g).alrLow := mapTable_get ..

theorem deviceReset_poll (q : ReportQueue) (d : Device) (bank : Bank) (k : PollId) : (deviceReset q d).poll bank k = none := by
  cases bank <;> exact replicate_get ..

/-- A device whose directory, pool, segments and banks are at their reset values meets the work law. -/
theorem workLaw_of_initial (entry : ∀ i, d.entry i = .vacant) (slot : ∀ k, d.slot k = .initial) (seg : ∀ g, ∃ a, d.seg g = .initial a)
    (poll : ∀ bank k, d.poll bank k = none) : WorkLaw d := by
  have hslot : ∀ k, (d.slot k).state = .free := fun k => by rw [slot]; rfl
  have hconv : ∀ k, (d.slot k).conv = .blank := fun k => by rw [slot]; rfl
  have hzero : ∀ {n} (p : Fin n → Bool), (∀ k, p k = false) → (List.finRange n).countP p = 0 := fun p hp =>
    List.countP_eq_zero.mpr fun k _ => by simp [hp k]
  refine (workLaw_iff d).mpr ⟨⟨fun i => ?_, fun i _ => ?_, fun i e => ?_, fun g c hd => ?_, fun g hd => ?_, fun g => ?_, ?_, fun g => ?_,
    fun k e => ?_, fun k e => ?_, fun k e => ?_⟩, fun g _ => ?_⟩
  · rw [entry, references_eq, hzero _ fun k => names_of_dead (by simp [Slot.live, hslot]) i, hzero _ fun k => by simp [pollNames, poll],
      hzero _ fun k => by simp [pollNames, poll]]
    rfl
  · rw [entry]
    rfl
  · rw [entry] at e
    exact absurd e (by decide)
  · obtain ⟨a, ha⟩ := seg g
    rw [ha, if_neg fun x => by simp [hslot] at x]
    cases c <;> rfl
  · obtain ⟨a, ha⟩ := seg g
    rw [ha]
    simp [Segment.initial, Work.runs, hslot]
  · obtain ⟨a, ha⟩ := seg g
    rw [ha]
    simp [Segment.initial]
  · unfold Machine.hostHeld
    rw [hzero _ fun k => by simp [hslot]]
    exact Nat.zero_le _
  · obtain ⟨a, ha⟩ := seg g
    rw [ha]
    exact Nat.zero_le _
  · simp [hconv, Conv.blank] at e
  · simp [hconv, Conv.blank] at e
  · simp [hslot] at e
  · obtain ⟨a, ha⟩ := seg g
    rw [ha]
    rfl

theorem workLaw_stepKept : StepKept WorkLaw where
  port _ _ h := h.of_parts (fun _ => rfl) (fun _ => rfl) (fun _ => rfl) fun _ _ _ => rfl
  reports _ _ h := h.of_parts (fun _ => rfl) (fun _ => rfl) (fun _ => rfl) fun _ _ _ => rfl
  rstn _ _ h := h.of_parts (fun _ => rfl) (fun _ => rfl) (fun _ => rfl) fun _ _ _ => rfl
  reset q d := workLaw_of_initial (deviceReset_entry q d) (deviceReset_slot q d) (fun g => ⟨_, deviceReset_seg q d g⟩) (deviceReset_poll q d)
  owner := workLaw_owner
  note n _ h := takeNote_workLaw h n
  event := workLaw_event

/-- Settles O59: the law is kept by the port, a reset, each event and each owner's answer. -/
theorem everyStepKeepsTheWorkLaw : Obligations.EveryStepKeepsTheWorkLaw := fun _ _ h hs => step_kept workLaw_stepKept h hs

end Sys2Proof.Machine
end

section
/-! PROOFS. Reset (R4, R21, R44 and the other blocks' values) and the statements about the directory's own requests (01). -/

namespace Sys2Proof.Machine

/-! ## Reset -/

/-- Settles O13: a reset writes every table afresh. -/
theorem deviceResetLeavesEveryBlockAtItsValue : Obligations.DeviceResetLeavesEveryBlockAtItsValue := by
  intro d reason
  have htransfer : d.port.transfer.atReset ≠ .active := by cases d.port.transfer <;> decide
  refine ⟨fun i => ?_, fun i => ?_, fun i => ?_, rfl, rfl, rfl, rfl, rfl, rfl, rfl, deviceReset_poll _ d, rfl, rfl, rfl, rfl, rfl, rfl, rfl,
    rfl, htransfer⟩
  · rw [deviceReset_entry]
    exact ⟨rfl, rfl⟩
  · rw [deviceReset_slot]
    exact ⟨rfl, rfl⟩
  · rw [deviceReset_seg]
    exact ⟨rfl, rfl, rfl, rfl, rfl, rfl, rfl, rfl, rfl, rfl, rfl⟩

theorem reset_seg (g : SegId) : Device.reset.seg g = .initial false := replicate_get ..
theorem reset_entry (i : TargetId) : Device.reset.entry i = .vacant := replicate_get ..

theorem reset_poll (bank : Bank) (k : PollId) : Device.reset.poll bank k = none := by cases bank <;> exact replicate_get ..

theorem reportLaw_ready (reason : ResetReason) : ReportLaw (.ready reason) where
  bounded := by simp [ReportQueue.ready, Config.reportPlaces]
  markerLast r hr := by simp [ReportQueue.ready] at hr
  fullHasMarker h := absurd h (by simp [ReportQueue.ready, Config.reportPlaces])
  counted r hr n hn := by
    rw [ReportQueue.ready, List.mem_singleton] at hr
    simp [hr, ReportBody.lostCount] at hn
  consecutive := ⟨rfl, trivial⟩

theorem inboxLaw_reset : InboxLaw Device.reset where
  places := Nat.zero_le _
  reserved := by
    have : ∀ g ∈ List.finRange 4, ¬ (Device.reset.seg g).reception.writes = true := fun g _ => by
      rw [reset_seg]
      decide
    exact (List.countP_eq_zero.mpr this).symm
  distinct := .nil
  bytes e he := absurd he (by simp [Device.reset])
  repeats e he := absurd he (by simp [Device.reset])
  refusals := Nat.zero_le _
  receiving g k b tr h := by
    rw [reset_seg] at h
    exact absurd h (by simp [Segment.initial])

/-- Settles O21: the reset state has no entry, conversation, poll entry or engine's work that a law could break on. -/
theorem resetStateIsSound : Obligations.ResetStateIsSound where
  left :=
    { replies := Nat.zero_le _
      reports := reportLaw_ready .power
      directory := directoryLaw_of_vacant fun i => by
        show (Device.reset.entry i).presence = _
        rw [reset_entry]
        rfl
      inbox := inboxLaw_reset
      schedule := ⟨rfl, fun h => h, by decide⟩
      work := workLaw_of_initial reset_entry (fun k => replicate_get ..) (fun g => ⟨_, reset_seg g⟩) reset_poll }
  right := rfl

/-! ## What the owner finds (09 R164) -/

variable {d : Device} {o : Outbound}

/-! The owner finds the device as it stands, but for the port. -/

@[simp] theorem found_entry (o : Outbound) (d : Device) (i : TargetId) : (found o d).entry i = d.entry i := rfl
@[simp] theorem found_slot (o : Outbound) (d : Device) (k : SlotId) : (found o d).slot k = d.slot k := rfl
@[simp] theorem found_seg (o : Outbound) (d : Device) (g : SegId) : (found o d).seg g = d.seg g := rfl
@[simp] theorem found_schedule (o : Outbound) (d : Device) : (found o d).schedule = d.schedule := rfl
@[simp] theorem found_poll (o : Outbound) (d : Device) (bank : Bank) (k : PollId) : (found o d).poll bank k = d.poll bank k := rfl
@[simp] theorem found_lookup (o : Outbound) (d : Device) (g : SegId) (a : Addr) : lookup g a (found o d) = lookup g a d := rfl
@[simp] theorem found_lowestVacant (o : Outbound) (d : Device) : lowestVacant (found o d) = lowestVacant d := rfl

/-- An accepted request that brings no note of the wire is answered by its owner. -/
theorem request_reply {c : Instr} {tag kind : Byte} {s : State} {o : Outbound} {u : Device} (k : RequestKind) (body : List Byte)
    (r : Reply) (hc : requestOf c = some (k, tag, body)) (hn : noteOf c = none) (hk : k.code + 0x80#8 = kind) (hb : body.length ≤ 60)
    (ha : accepts s.dev body.length o = true) (hl : lengthAllowed k body = true) (ho : owner k body (found o s.dev) = (r, u)) :
    exec c s = replyTo s kind tag (r.status.code :: r.fields) u := by
  rw [request_answered hc hb ha hl, hn, hk]
  show (let a := owner k body (found o s.dev); replyTo s kind tag (a.1.status.code :: a.1.fields) a.2) = _
  rw [ho]

theorem index_none {n : Nat} {b : Byte} (h : n ≤ b.toNat) : index n b = none := by
  unfold index
  rw [dif_neg (by omega)]

theorem checkOf_code (c : CheckMode) : checkOf c.code = some c := by cases c <;> rfl

theorem byte_ne_of_toNat {b c : Byte} (h : b.toNat ≠ c.toNat) : b ≠ c := fun e => h (congrArg _ e)

theorem checkOf_none {b : Byte} (h : 2 ≤ b.toNat) : checkOf b = none := by
  unfold checkOf
  rw [if_neg (byte_ne_of_toNat (by simp; omega)), if_neg (byte_ne_of_toNat (by simp; omega))]

theorem entryFields_some (c : CheckMode) {t : Byte} (h : t.toNat ≤ 15) :
    entryFields c.code t = some (c, if t = 0#8 then 3 else t.toNat) := by
  unfold entryFields
  rw [checkOf_code]
  show (if t.toNat ≤ 15 then _ else _) = _
  rw [if_pos h]
  rfl

theorem entryFields_none {b t : Byte} (h : 2 ≤ b.toNat ∨ 16 ≤ t.toNat) : entryFields b t = none := by
  unfold entryFields
  obtain h | h := h
  · rw [checkOf_none h]
  · split
    · rw [if_neg (by omega)]
    · rfl

theorem assignable_iff {b : Byte} : assignable b = true ↔ 0x08 ≤ b.toNat ∧ b.toNat ≤ 0x77 := by
  simp [assignable, within]

/-! ## Looking up an entry -/

theorem lookup_isSome {g : SegId} {a : Addr} :
    (lookup g a d).isSome = true ↔ ∃ i, (d.entry i).presence ≠ .vacant ∧ (d.entry i).segment = g ∧ (d.entry i).address = a := by
  simp [lookup, List.find?_isSome]

/-- The search of a table finds the lowest index that has what is searched for. -/
theorem find_finRange {n : Nat} {p : Fin n → Bool} {i : Fin n} (hi : p i = true) (hlow : ∀ j, j < i → p j = false) :
    (List.finRange n).find? p = some i := by
  rw [List.find?_eq_some_iff_getElem]
  refine ⟨hi, i.val, by simp, by simp, fun j hj => ?_⟩
  simp [hlow ⟨j, by omega⟩ hj]

/-- The entry of a target that the search finds for a segment and an address (01 R13). -/
theorem lookup_eq_some {g : SegId} {a : Addr} {i : TargetId} (hp : (d.entry i).presence ≠ .vacant) (hs : (d.entry i).segment = g)
    (ha : (d.entry i).address = a)
    (hlow : ∀ j, j < i → (d.entry j).presence ≠ .vacant → (d.entry j).segment = g → (d.entry j).address ≠ a) : lookup g a d = some i :=
  find_finRange (by simp [hp, hs, ha]) fun j hj => by
    simp only [decide_eq_false_iff_not]
    exact fun ⟨e1, e2, e3⟩ => hlow j hj e1 e2 e3

theorem lookup_eq_none {g : SegId} {a : Addr}
    (h : ∀ i, (d.entry i).presence ≠ .vacant → (d.entry i).segment = g → (d.entry i).address ≠ a) : lookup g a d = none := by
  rw [← Option.not_isSome_iff_eq_none, lookup_isSome]
  exact fun ⟨i, e1, e2, e3⟩ => h i e1 e2 e3

theorem lowestVacant_eq_some {i : TargetId} (hi : (d.entry i).presence = .vacant) (hlow : ∀ j, j < i → (d.entry j).presence ≠ .vacant) :
    lowestVacant d = some i := find_finRange (by simp [hi]) fun j hj => by simp [hlow j hj]

theorem lowestVacant_eq_none (h : ∀ i, (d.entry i).presence ≠ .vacant) : lowestVacant d = none := by
  simpa [lowestVacant, List.find?_eq_none] using h

/-! ## ADD_TARGET (01 R5) -/

/-- The checks of ADD_TARGET once its fields are in range. -/
theorem requestAddTarget_inRange {g : SegId} {a threshold lo hi : Byte} (c : CheckMode) (ha : 0x08 ≤ a.toNat ∧ a.toNat ≤ 0x77)
    (ht : threshold.toNat ≤ 15) (d : Device) :
    requestAddTarget [byte g.val, a, c.code, lo, hi, threshold] d =
      if (d.seg g).config.ownAddress = a.setWidth 7 then (refuse .addressIsOwn, d)
      else if (lookup g (a.setWidth 7) d).isSome then (refuse .duplicate, d)
      else
        match lowestVacant d with
        | none => (refuse .directoryFull, d)
        | some i => (⟨.ok, [byte i.val]⟩, d.updEntry i fun _ =>
            ⟨.unconfirmed, g, a.setWidth 7, c, hi ++ lo, if threshold = 0#8 then 3 else threshold.toNat, 0, 0⟩) := by
  have h1 : index 4 (byteAt [byte g.val, a, c.code, lo, hi, threshold] 0) = some g := index_byte g (by decide)
  have h2 : entryFields (byteAt [byte g.val, a, c.code, lo, hi, threshold] 2) (byteAt [byte g.val, a, c.code, lo, hi, threshold] 5) =
      some (c, if threshold = 0#8 then 3 else threshold.toNat) := entryFields_some c ht
  have h3 : assignable (byteAt [byte g.val, a, c.code, lo, hi, threshold] 1) = true := assignable_iff.mpr ha
  unfold requestAddTarget
  rw [h1, h2]
  simp only [h3, if_true]
  rfl

/-- Settles O22: the fields first, then the checks of R5 in their order. -/
theorem addTargetFillsTheLowestVacantEntry : Obligations.AddTargetFillsTheLowestVacantEntry := by
  constructor
  · intro s tag b0 b1 b2 b3 b4 b5 o ha hbad
    refine request_reply .addTarget _ (refuse .badField) rfl rfl rfl (by simp) ha rfl ?_
    show requestAddTarget _ _ = _
    unfold requestAddTarget
    by_cases hf : 4 ≤ b0.toNat ∨ 2 ≤ b2.toNat ∨ 16 ≤ b5.toNat
    · obtain h | h := hf
      · rw [show index 4 (byteAt [b0, b1, b2, b3, b4, b5] 0) = none from index_none h]
      · rw [show entryFields (byteAt [b0, b1, b2, b3, b4, b5] 2) (byteAt [b0, b1, b2, b3, b4, b5] 5) = none from entryFields_none h]
        split
        · next h => exact absurd h.symm (by simp)
        · rfl
    · have hb1 : ¬ assignable (byteAt [b0, b1, b2, b3, b4, b5] 1) = true := fun e => by
        have : 0x08 ≤ b1.toNat ∧ b1.toNat ≤ 0x77 := assignable_iff.mp e
        omega
      split
      · rw [if_neg hb1]
      · rfl
  · intro s tag lo hi g a c threshold o ha
    have run : ∀ (r : Reply) {t : Device}, requestAddTarget [byte g.val, a, c.code, lo, hi, threshold] (found o s.dev) = (r, t) →
        exec (.addTarget tag [byte g.val, a, c.code, lo, hi, threshold]) s = replyTo s 0x90#8 tag (r.status.code :: r.fields) t :=
      fun r _ h => request_reply .addTarget _ r rfl rfl rfl (by simp) ha rfl h
    have key := fun (h1 : 0x08 ≤ a.toNat ∧ a.toNat ≤ 0x77) (h2 : threshold.toNat ≤ 15) =>
      requestAddTarget_inRange (g := g) (lo := lo) (hi := hi) c h1 h2 (found o s.dev)
    refine ⟨fun ⟨h1, h2, h3⟩ hown => run (refuse .addressIsOwn) ?_, fun ⟨h1, h2, h3⟩ hown htaken => run (refuse .duplicate) ?_,
      fun ⟨h1, h2, h3⟩ hown hfree hfull => run (refuse .directoryFull) ?_,
      fun i ⟨h1, h2, h3⟩ hown hfree hi hlow => run ⟨.ok, [byte i.val]⟩ ?_⟩
    · rw [key ⟨h1, h2⟩ h3, found_seg, if_pos hown]
    · rw [key ⟨h1, h2⟩ h3, found_seg, if_neg hown, found_lookup, if_pos (lookup_isSome.mpr htaken)]
    · rw [key ⟨h1, h2⟩ h3, found_seg, if_neg hown, found_lookup, if_neg fun e => hfree (lookup_isSome.mp e), found_lowestVacant,
        lowestVacant_eq_none hfull]
    · rw [key ⟨h1, h2⟩ h3, found_seg, if_neg hown, found_lookup, if_neg fun e => hfree (lookup_isSome.mp e), found_lowestVacant,
        lowestVacant_eq_some hi hlow]

/-! ## MODIFY_TARGET (01 R6) -/

/-- Settles O23: the presence first, then the fields. -/
theorem modifyTargetReplacesTheSettings : Obligations.ModifyTargetReplacesTheSettings := by
  intro s tag lo hi i c threshold o ha
  have key : ∀ (b : Byte) (d : Device), requestModifyTarget [byte i.val, b, lo, hi, threshold] d =
      if (d.entry i).presence = .vacant then (refuse .unknownTarget, d)
      else if (d.entry i).presence = .withdrawing then (refuse .targetGone, d)
      else
        match entryFields b threshold with
        | none => (refuse .badField, d)
        | some (check, n) => (⟨.ok, [byte i.val]⟩, d.updEntry i fun e =>
            { e with check := check, label := hi ++ lo, threshold := n, misses := if e.presence = .missing then n else 0 }) := fun b d => by
    unfold requestModifyTarget
    rw [show index 64 (byteAt [byte i.val, b, lo, hi, threshold] 0) = some i from index_byte i (by decide)]
    rfl
  have run : ∀ (b : Byte) (r : Reply) {t : Device}, requestModifyTarget [byte i.val, b, lo, hi, threshold] (found o s.dev) = (r, t) →
      exec (.modifyTarget tag [byte i.val, b, lo, hi, threshold]) s = replyTo s 0x91#8 tag (r.status.code :: r.fields) t :=
    fun _ r _ h => request_reply .modifyTarget _ r rfl rfl rfl (by simp) ha rfl h
  refine ⟨fun hv => run _ (refuse .unknownTarget) ?_, fun hw => run _ (refuse .targetGone) ?_, fun hv hw ht => run _ (refuse .badField) ?_,
    fun b hv hw hb => run b (refuse .badField) ?_, fun hv hw ht => run _ ⟨.ok, [byte i.val]⟩ ?_⟩
  · rw [key, found_entry, if_pos hv]
  · rw [key, found_entry, if_neg (by rw [hw]; decide), if_pos hw]
  · rw [key, found_entry, if_neg hv, if_neg hw, entryFields_none (Or.inr ht)]
  · rw [key, found_entry, if_neg hv, if_neg hw, entryFields_none (Or.inl hb)]
  · rw [key, found_entry, if_neg hv, if_neg hw, entryFields_some c ht]

/-! ## WITHDRAW_TARGET (01 R15) -/

/-- The checks of both forms, once index and form are in range. -/
theorem requestWithdrawTarget_inRange (i : TargetId) {form : Byte} (hf : form.toNat < 2) (d : Device) :
    requestWithdrawTarget [byte i.val, form] d =
      if (d.entry i).presence = .vacant then (refuse .unknownTarget, d)
      else if (d.entry i).presence = .withdrawing then (refuse .targetGone, d)
      else if form = 0#8 then withdrawNormal i d else withdrawForced i d := by
  unfold requestWithdrawTarget
  rw [show index 64 (byteAt [byte i.val, form] 0) = some i from index_byte i (by decide)]
  show (if 2 ≤ form.toNat then _ else _) = _
  rw [if_neg (by omega)]
  rfl

/-- Settles O24: the checks of R15 in their order. -/
theorem normalWithdrawalNeedsNoReference : Obligations.NormalWithdrawalNeedsNoReference := by
  intro s tag i o ha
  have run : ∀ (r : Reply) {t : Device}, requestWithdrawTarget [byte i.val, 0#8] (found o s.dev) = (r, t) →
      exec (.withdrawTargetNormal tag [byte i.val, 0#8]) s = replyTo s 0x92#8 tag (r.status.code :: r.fields) t :=
    fun r _ h => request_reply .withdrawTarget _ r rfl rfl rfl (by simp) ha rfl h
  have key := requestWithdrawTarget_inRange i (form := 0#8) (by decide) (found o s.dev)
  refine ⟨fun hv => run (refuse .unknownTarget) ?_, fun hw => run (refuse .targetGone) ?_,
    fun hv hw hr => run ⟨.ok, [Presence.vacant.code]⟩ ?_, fun hv hw hr => run (refuse .inUse) ?_⟩
  · rw [key, found_entry, if_pos hv]
  · rw [key, found_entry, if_neg (by rw [hw]; decide), if_pos hw]
  · rw [key, found_entry, if_neg hv, if_neg hw, if_pos rfl, withdrawNormal, found_entry, if_pos hr]
  · rw [key, found_entry, if_neg hv, if_neg hw, if_pos rfl, withdrawNormal, found_entry, if_neg hr]

/-! ## READ_TARGET and LIST_TARGETS (01 R19, R20) -/

theorem length_eq_twelve {α : Type} {l : List α} (h : l.length = 12) :
    ∃ x0 x1 x2 x3 x4 x5 x6 x7 x8 x9 x10 x11, l = [x0, x1, x2, x3, x4, x5, x6, x7, x8, x9, x10, x11] := by
  match l, h with
  | [x0, x1, x2, x3, x4, x5, x6, x7, x8, x9, x10, x11], _ => exact ⟨x0, x1, x2, x3, x4, x5, x6, x7, x8, x9, x10, x11, rfl⟩

/-- The next index to ask for is read off the list. -/
theorem nextIndex_eq (l : List TargetId) :
    nextIndex l = match l with
      | [_, _, _, _, _, _, _, _, _, _, _, last] => last.val + 1
      | _ => 64 := by
  split
  · rfl
  · next hn =>
    unfold nextIndex
    split
    · have hlen : l.length ≠ 12 := fun e => by
        obtain ⟨x0, x1, x2, x3, x4, x5, x6, x7, x8, x9, x10, last, rfl⟩ := length_eq_twelve e
        exact hn x0 x1 x2 x3 x4 x5 x6 x7 x8 x9 x10 last rfl
      rw [if_neg hlen]
    · rfl

theorem requestReadTarget_index (i : TargetId) (d : Device) : requestReadTarget [byte i.val] d = (⟨.ok, (d.entry i).bytes⟩, d) := by
  unfold requestReadTarget
  rw [show index 64 (byteAt [byte i.val] 0) = some i from index_byte i (by decide)]

/-- The four bytes that LIST_TARGETS sends of an entry. -/
def Device.listedBytes (d : Device) (i : TargetId) : List Byte :=
  [byte i.val, (d.entry i).presence.code, byte (d.entry i).segment.val, (d.entry i).address.setWidth 8]

theorem requestListTargets_index (start : TargetId) (d : Device) : requestListTargets [byte start.val] d =
    (⟨.ok, [byte (listed start.val d).length, byte (nextIndex (listed start.val d))] ++ (listed start.val d).flatMap d.listedBytes⟩, d) := by
  unfold requestListTargets
  rw [show index 64 (byteAt [byte start.val] 0) = some start from index_byte start (by decide)]
  rfl

theorem listed_eq (start : TargetId) (d : Device) : listed start.val d =
    ((List.finRange 64).filter fun i => decide (start ≤ i) && decide ((d.entry i).presence ≠ .vacant)).take 12 := by
  unfold listed
  congr 2
  funext i
  exact Bool.decide_and ..

/-- Settles O26: both answers are read off the entries. -/
theorem directoryIsReadBack : Obligations.DirectoryIsReadBack := by
  refine ⟨fun s tag i o ha => ?_, fun s tag b o ha hb => ⟨?_, ?_⟩, fun s tag start o ha => ?_⟩
  · have run := request_reply (c := .readTarget tag [byte i.val]) .readTarget _ _ rfl rfl rfl (by simp) ha rfl
      (requestReadTarget_index i (found o s.dev))
    refine ⟨fun hv => run.trans ?_, fun hv => run.trans ?_⟩
    · rw [found_entry, Entry.bytes, if_pos hv, hv]
      rfl
    · rw [found_entry, Entry.bytes, if_neg hv]
      rfl
  · refine request_reply .readTarget _ (refuse .badField) rfl rfl rfl (by simp) ha rfl ?_
    show requestReadTarget _ _ = _
    unfold requestReadTarget
    rw [show index 64 (byteAt [b] 0) = none from index_none hb]
  · refine request_reply .listTargets _ (refuse .badField) rfl rfl rfl (by simp) ha rfl ?_
    show requestListTargets _ _ = _
    unfold requestListTargets
    rw [show index 64 (byteAt [b] 0) = none from index_none hb]
  · have run := request_reply (c := .listTargets tag [byte start.val]) (kind := 0x94#8) .listTargets _ _ rfl rfl rfl (by simp) ha rfl
      (requestListTargets_index start (found o s.dev))
    rw [listed_eq, nextIndex_eq] at run
    exact run

/-! ## Address events (01 R9 to R12) -/

/-- An update of an entry is known from what it makes of the entry that stands there. -/
theorem updEntry_congr {d : Device} {i : TargetId} {f f' : Entry → Entry} (h : f (d.entry i) = f' (d.entry i)) :
    d.updEntry i f = d.updEntry i f' := by
  have h' : f (d.directory.get i) = f' (d.directory.get i) := h
  unfold Device.updEntry upd
  rw [h']

/-- Settles O27: the events by the presence state that they find. -/
theorem addressEventsMoveThePresence : Obligations.AddressEventsMoveThePresence := by
  intro d i
  refine ⟨fun h => ?_, fun h => ?_, fun h => ?_, fun h hn => ?_, fun h hn => ?_, fun h hn => ?_, fun h => ?_, rfl, rfl, rfl,
    fun _ _ _ _ => by unfold addressEvent; rfl⟩
  · unfold ackEvent
    dsimp only
    obtain h | h := h <;> rw [h]
  · unfold ackEvent
    dsimp only
    obtain h | h := h <;> rw [h]
  · unfold ackEvent nakEvent
    dsimp only
    obtain h | h := h <;> rw [h] <;> exact ⟨rfl, rfl⟩
  · unfold nakEvent
    dsimp only
    obtain h | h | h := h <;> rw [h] <;> exact if_pos hn
  · unfold nakEvent
    dsimp only
    rw [h]
    refine (if_neg hn).trans (updEntry_congr ?_)
    simp [h]
  · unfold nakEvent
    dsimp only
    obtain h | h := h <;> rw [h] <;> refine (if_neg hn).trans (updEntry_congr ?_) <;> simp [h]
  · unfold nakEvent
    dsimp only
    rw [h]

end Sys2Proof.Machine
end

section
/-! PROOFS. What the first check of a request refuses (R6, R15, R28, R29, R32, R53 to R55, R60, R62, R80, R83, R132, R133, R135). -/

namespace Sys2Proof.Machine

/-! ## A code outside its list is no code -/

theorem ne_zero_and_one_of_two_le {b : Byte} (h : 2 ≤ b.toNat) : b ≠ 0#8 ∧ b ≠ 1#8 :=
  ⟨byte_ne_of_toNat (by simp; omega), byte_ne_of_toNat (by simp; omega)⟩

theorem ne_two_of_three_le {b : Byte} (h : 3 ≤ b.toNat) : b ≠ 2#8 := byte_ne_of_toNat (by simp; omega)

theorem classOf_none {b : Byte} (h : 2 ≤ b.toNat) : classOf b = none := by
  obtain ⟨h0, h1⟩ := ne_zero_and_one_of_two_le h
  rw [classOf, if_neg h0, if_neg h1]

theorem speedOf_none {b : Byte} (h : 2 ≤ b.toNat) : speedOf b = none := by
  obtain ⟨h0, h1⟩ := ne_zero_and_one_of_two_le h
  rw [speedOf, if_neg h0, if_neg h1]

theorem bankOf_none {b : Byte} (h : 2 ≤ b.toNat) : bankOf b = none := by
  obtain ⟨h0, h1⟩ := ne_zero_and_one_of_two_le h
  rw [bankOf, if_neg h0, if_neg h1]

theorem modeOf_none {b : Byte} (h : 3 ≤ b.toNat) : modeOf b = none := by
  obtain ⟨h0, h1⟩ := ne_zero_and_one_of_two_le (b := b) (by omega)
  rw [modeOf, if_neg h0, if_neg h1, if_neg (ne_two_of_three_le h)]

theorem policyOf_none {b : Byte} (h : 3 ≤ b.toNat) : policyOf b = none := by
  obtain ⟨h0, h1⟩ := ne_zero_and_one_of_two_le (b := b) (by omega)
  rw [policyOf, if_neg h0, if_neg h1, if_neg (ne_two_of_three_le h)]

variable {body : List Byte} {d : Device}

/-! ## The target field and the header (10 R180, R181) -/

theorem targetAt_none (h : 2 ≤ (byteAt body 0).toNat ∨ ((byteAt body 0).toNat = 0 ∧ 64 ≤ (byteAt body 1).toNat) ∨
    ((byteAt body 0).toNat = 1 ∧
      (128 ≤ (byteAt body 1).toNat ∨ 4 ≤ (byteAt body 2).toNat ∨ 2 ≤ (byteAt body 3).toNat))) : targetAt body = none := by
  unfold targetAt
  obtain h | ⟨h0, h⟩ | ⟨h0, h⟩ := h
  · obtain ⟨h0, h1⟩ := ne_zero_and_one_of_two_le h
    rw [if_neg h0, if_neg h1]
  · rw [if_pos (BitVec.eq_of_toNat_eq h0), index_none h]
    rfl
  · rw [if_neg (byte_ne_of_toNat (by rw [h0]; decide)), if_pos (BitVec.eq_of_toNat_eq h0)]
    obtain h | h | h := h
    · split
      · rw [if_neg (by omega)]
      · rfl
    · rw [index_none h]
    · rw [checkOf_none h]
      cases index 4 (byteAt body 2) <;> rfl

/-- A header with a field out of range is none: the target field, class, report mode and the retry settings, if there are any. -/
theorem headerAt_none (h : targetAt body = none ∨ 2 ≤ (byteAt body 4).toNat ∨ 3 ≤ (byteAt body 5).toNat ∨
    ((byteAt body 8).toNat ≠ 0 ∧ (7 < (byteAt body 9).toNat ∨ (byteAt body 10).toNat = 0 ∨ 15 < (byteAt body 11).toNat))) :
    headerAt body = none := by
  unfold headerAt
  obtain h | h | h | ⟨h8, h⟩ := h
  · rw [h]
  · rw [classOf_none h]
    cases targetAt body <;> rfl
  · rw [modeOf_none h]
    cases targetAt body <;> cases classOf (byteAt body 4) <;> rfl
  · have hflag : flagAt body 8 = true := by simpa [flagAt] using byte_ne_of_toNat h8
    dsimp only
    split
    · rw [if_pos hflag, if_neg]
      simp only [within, Bool.and_eq_true, decide_eq_true_eq]
      omega
    · rfl

/-- The header check of `Claims.outOfRange`, as the model reads the fields. -/
theorem headerAt_outOfRange (h : Claims.outOfRange .openConversation body) : headerAt body = none := by
  obtain h | h | h | h | h | h := h
  · exact headerAt_none (Or.inl (targetAt_none (Or.inl h)))
  · exact headerAt_none (Or.inl (targetAt_none (Or.inr (Or.inl h))))
  · exact headerAt_none (Or.inl (targetAt_none (Or.inr (Or.inr h))))
  · exact headerAt_none (Or.inr (Or.inl h))
  · exact headerAt_none (Or.inr (Or.inr (Or.inl h)))
  · exact headerAt_none (Or.inr (Or.inr (Or.inr h)))

theorem pollConfigAt_none (h : 64 ≤ (byteAt body 1).toNat ∨ 3 ≤ (byteAt body 8).toNat ∨ 2 ≤ (byteAt body 9).toNat) :
    pollConfigAt body = none := by
  unfold pollConfigAt
  obtain h | h | h := h
  · rw [index_none h]
  · rw [policyOf_none h]
    cases index 64 (byteAt body 1) <;> rfl
  · rw [classOf_none h]
    cases index 64 (byteAt body 1) <;> cases policyOf (byteAt body 8) <;> rfl

theorem onSegment_outOfRange (f : SegId → Device → Reply × Device) (h : 4 ≤ (byteAt body 0).toNat) :
    onSegment body f d = (refuse .badField, d) := by rw [onSegment, index_none h]

/-! ## The owner's first check -/

/-- A field out of range is refused BAD_FIELD by the owner, which leaves the device as it is. -/
theorem owner_outOfRange {k : RequestKind} (h : Claims.outOfRange k body) : owner k body d = (refuse .badField, d) := by
  cases k
  case modifyTarget =>
    show requestModifyTarget body d = _
    rw [requestModifyTarget, show index 64 (byteAt body 0) = none from index_none h]
  case withdrawTarget =>
    show requestWithdrawTarget body d = _
    obtain h | h : 64 ≤ (byteAt body 0).toNat ∨ 2 ≤ (byteAt body 1).toNat := h
    · rw [requestWithdrawTarget, index_none h]
    · unfold requestWithdrawTarget
      cases index 64 (byteAt body 0)
      · rfl
      · exact if_pos h
  case configureSegment =>
    obtain h | h : 4 ≤ (byteAt body 0).toNat ∨ 2 ≤ (byteAt body 2).toNat := h
    · exact onSegment_outOfRange _ h
    · show onSegment body (configureSegment body) d = _
      unfold onSegment configureSegment configAt
      rw [speedOf_none h]
      cases index 4 (byteAt body 0) <;> rfl
  case segmentStatus =>
    show requestSegmentStatus body d = _
    exact onSegment_outOfRange _ h
  case holdSegment =>
    show requestHoldSegment body d = _
    exact onSegment_outOfRange _ h
  case releaseSegment =>
    show requestReleaseSegment body d = _
    exact onSegment_outOfRange _ h
  case resetSegment =>
    show requestResetSegment body d = _
    exact onSegment_outOfRange _ h
  case flushSegment =>
    show requestFlushSegment body d = _
    exact onSegment_outOfRange _ h
  case readFault =>
    show requestReadFault body d = _
    exact onSegment_outOfRange _ h
  case openConversation =>
    show requestOpenConversation body d = _
    rw [requestOpenConversation, headerAt_outOfRange h]
  case runConversation =>
    show requestRunConversation body d = _
    obtain h | h := h
    · rw [requestRunConversation, headerAt_outOfRange h]
    · rw [requestRunConversation, h]
      cases headerAt body <;> rfl
  case putPoll =>
    show requestPutPoll body d = _
    obtain h | h : 48 ≤ (byteAt body 0).toNat ∨ 64 ≤ (byteAt body 1).toNat ∨ 3 ≤ (byteAt body 8).toNat ∨ 2 ≤ (byteAt body 9).toNat := h
    · rw [requestPutPoll, index_none h]
    · rw [requestPutPoll, pollConfigAt_none h]
      cases index 48 (byteAt body 0) <;> rfl
  case clearPoll =>
    show requestClearPoll body d = _
    rw [requestClearPoll, show index 48 (byteAt body 0) = none from index_none h]
  case readPoll =>
    show requestReadPoll body d = _
    obtain h | h : 2 ≤ (byteAt body 0).toNat ∨ 48 ≤ (byteAt body 1).toNat := h
    · rw [requestReadPoll, bankOf_none h]
    · rw [requestReadPoll, index_none h]
      cases bankOf (byteAt body 0) <;> rfl
  all_goals exact absurd h not_false

/-! ## A handle read back from its bytes (10 R178) -/

theorem ofLe16_le16 (w : Half) : ofLe16 (w.setWidth 8) ((w >>> 8).setWidth 8) = w := by
  have hw := w.isLt
  apply BitVec.eq_of_toNat_eq
  rw [ofLe16, BitVec.toNat_append, ← Nat.shiftLeft_add_eq_or_of_lt (BitVec.isLt _), Nat.shiftLeft_eq]
  simp only [BitVec.toNat_setWidth, BitVec.toNat_ushiftRight, Nat.shiftRight_eq_div_pow]
  omega

theorem handleAt_bytes (h : Handle) (rest : List Byte) : handleAt (h.bytes ++ rest) = some h := by
  have hgen := h.gen.isLt
  have hslot : index 32 (byteAt (h.bytes ++ rest) 0) = some h.slot := index_byte h.slot (by decide)
  have hhalf : halfAt (h.bytes ++ rest) 1 = h.gen.setWidth 16 := ofLe16_le16 _
  have hback : (h.gen.setWidth 16).setWidth 11 = h.gen := BitVec.eq_of_toNat_eq (by simp)
  unfold handleAt
  rw [hslot, hhalf]
  dsimp only
  rw [if_pos (by simp; omega), hback]

/-- Settles O30: a field out of range reads as none, and a malformed step record as no step. -/
theorem fieldsOutOfRangeAreRefused : Obligations.FieldsOutOfRangeAreRefused := by
  constructor
  · intro c k tag body s o hc hb hl ha h
    rw [request_answered hc hb ha hl, owner_outOfRange h]
    rfl
  · intro s tag h records o body hb hl ha hgen hstate hsteps
    refine request_reply .appendSteps body (refuse .badField) rfl rfl rfl hb ha hl ?_
    show onConversation body (appendSteps body) (found o s.dev) = _
    have hslot : ¬ (((found o s.dev).slot h.slot).state = .free ∨ ((found o s.dev).slot h.slot).gen ≠ h.gen) := by
      rw [found_slot, hstate, hgen]
      simp
    unfold onConversation
    rw [show handleAt body = some h from handleAt_bytes h records]
    dsimp only
    rw [if_neg hslot, appendSteps, found_slot, if_pos hstate, show stepsOf (body.drop 3) = none from hsteps]

end Sys2Proof.Machine
end

section
/-! PROOFS. The end of a transaction and the loss of arbitration: what each leads to (R72, R86, R90, R91, R120 to R122). -/

namespace Sys2Proof.Machine

variable {d : Device}

/-- An update of a segment is known from what it makes of the segment that stands there. -/
theorem updSeg_congr {g : SegId} {f f' : Segment → Segment} (h : f (d.seg g) = f' (d.seg g)) : d.updSeg g f = d.updSeg g f' := by
  have h' : f (d.segments.get g) = f' (d.segments.get g) := h
  unfold Device.updSeg upd
  rw [h']

/-! ## What is on the wire (log 7) -/

theorem txn_nothing {g : SegId} (hw : (d.seg g).work = .nothing) : d.txn g = none := by
  rw [Device.txn, hw]

theorem txn_sweep {g : SegId} {pos : BusPos} (hw : (d.seg g).work = .sweep pos) (hp : pos ≠ .waitFree) : d.txn g = some sweepTxn := by
  rw [Device.txn, hw]
  cases pos
  case waitFree => exact absurd rfl hp
  all_goals rfl

theorem txn_conversation {g : SegId} {h : Handle} {ctx : Context} {readHalf pec : Bool} {pos : BusPos} {step : Step}
    (hw : (d.seg g).work = .conversation h ctx) (hphase : ctx.phase = .transaction readHalf pec pos) (hp : pos ≠ .waitFree)
    (hstep : (d.conv h).steps[ctx.current]? = some step) :
    d.txn g = some (txnOf (targetAddress d (d.conv h).target) readHalf pec step) := by
  simp only [Device.txn, hw, hphase, hstep]

/-! ## The events do not look at the segments, and keep the conversations -/

theorem post_updSeg (b : ReportBody) (g : SegId) (f : Segment → Segment) (d : Device) : post b (d.updSeg g f) = (post b d).updSeg g f := rfl

theorem ackEvent_updSeg (i : TargetId) (g : SegId) (f : Segment → Segment) (d : Device) :
    ackEvent i (d.updSeg g f) = (ackEvent i d).updSeg g f := by
  unfold ackEvent
  simp only [updSeg_entry_frame]
  cases (d.entry i).presence <;> rfl

theorem addressEvent_conv (t : Target) (b : Option Bool) (h : Handle) (d : Device) : (addressEvent t b d).conv h = d.conv h :=
  congrArg Slot.conv ((addressEvent_slotsKept t b d).slot h.slot)

/-! ## The end of a sweep (R120, R121) -/

/-- The segment once its sweep is over: IDLE, the STOP placed, with what the sweep leaves. -/
def Segment.swept (sweep : Sweep) (count : Nat) (g : Segment) : Segment :=
  { g with state := .idle, work := .nothing, owner := .taken, freeCount := true, sweep := sweep, emptySweeps := count }

theorem sweepEnds_nak (g : SegId) (received : List Byte) (d : Device) :
    sweepEnds g (some 0) received d = endSweep g (sweepEmpty g d) := rfl

theorem sweepEnds_byte (g : SegId) (b : Byte) (rest : List Byte) (d : Device) :
    sweepEnds g none (b :: rest) d = endSweep g (sweepResponder g ((b >>> 1).setWidth 7) d) := rfl

/-- A sweep without a responder. -/
theorem emptySweep_eq (g : SegId) (d : Device) : endSweep g (sweepEmpty g (placeStop g d)) =
    if (d.seg g).alrLow = false then d.updSeg g (Segment.swept .idle 0)
    else if (d.seg g).emptySweeps + 1 < 8 then d.updSeg g (Segment.swept .holdoff ((d.seg g).emptySweeps + 1))
    else (post (.alertStuck g) d).updSeg g (Segment.swept .stuck 8) := by
  unfold sweepEmpty endSweep placeStop
  simp only [updSeg_seg_same, Config.stuckLimit]
  split
  · simp only [updSeg_updSeg]
    rfl
  · split
    · simp only [updSeg_updSeg]
      rfl
    · simp only [post_updSeg, updSeg_updSeg]
      rfl

/-- A responder ends the sweep: what it reported, then the segment, pending again only while ALR asks for it. -/
theorem responder_rearm (g : SegId) (d : Device) :
    endSweep g ((placeStop g d).updSeg g fun x => { x with emptySweeps := 0 }.rearm) =
      d.updSeg g (Segment.swept (if (d.seg g).alrLow = true ∧ (d.seg g).config.sweepEnable = true then .pending else .idle) 0) := by
  unfold endSweep placeStop
  rw [updSeg_updSeg, updSeg_updSeg]
  refine updSeg_congr ?_
  unfold Segment.rearm
  dsimp only
  split <;> rfl

theorem responder_unknown {g : SegId} {a : Addr} (h : lookup g a d = none) : endSweep g (sweepResponder g a (placeStop g d)) =
    (post (.alertUnknown g a) d).updSeg g
      (Segment.swept (if (d.seg g).alrLow = true ∧ (d.seg g).config.sweepEnable = true then .pending else .idle) 0) := by
  have hl : lookup g a (placeStop g d) = none := h
  simp only [sweepResponder, hl]
  exact responder_rearm g (post (.alertUnknown g a) d)

theorem responder_known {g : SegId} {a : Addr} {i : TargetId} (h : lookup g a d = some i) :
    endSweep g (sweepResponder g a (placeStop g d)) =
      (ackEvent i (post (.alert g i (d.entry i).label a) d)).updSeg g
        (Segment.swept (if (d.seg g).alrLow = true ∧ (d.seg g).config.sweepEnable = true then .pending else .idle) 0) := by
  have hl : lookup g a (placeStop g d) = some i := h
  have hseg : (ackEvent i (post (.alert g i (d.entry i).label a) d)).seg g = d.seg g := (ackEvent_slotsKept i _).seg g
  have hplace : ackEvent i (post (.alert g i ((placeStop g d).entry i).label a) (placeStop g d)) =
      placeStop g (ackEvent i (post (.alert g i (d.entry i).label a) d)) :=
    ackEvent_updSeg i g (fun x => { x with owner := .taken, freeCount := true }) (post (.alert g i (d.entry i).label a) d)
  simp only [sweepResponder, hl]
  rw [hplace, responder_rearm, hseg]

/-! ## TRANSACTION_END -/

theorem transactionEnds_sweep {g : SegId} {pos : BusPos} (nakAt : Option Nat) (received : List Byte) (hw : (d.seg g).work = .sweep pos)
    (hp : pos ≠ .waitFree) : transactionEnds g nakAt received d = sweepEnds g nakAt received (placeStop g d) := by
  unfold transactionEnds
  rw [txn_sweep hw hp, hw]
  rfl

theorem transactionEnds_conversation {g : SegId} {h : Handle} {ctx : Context} {readHalf pec : Bool} {pos : BusPos} {step : Step}
    (nakAt : Option Nat) (received : List Byte)
    (hw : (d.seg g).work = .conversation h ctx) (hphase : ctx.phase = .transaction readHalf pec pos) (hp : pos ≠ .waitFree)
    (hstep : (d.conv h).steps[ctx.current]? = some step) :
    transactionEnds g nakAt received d =
      classify g h ctx readHalf step
        ((txnOf (targetAddress d (d.conv h).target) readHalf pec step).judge (targetAddress d (d.conv h).target) nakAt received).1
        ((txnOf (targetAddress d (d.conv h).target) readHalf pec step).judge (targetAddress d (d.conv h).target) nakAt received).2
        (addressEvent (d.conv h).target (some (nakAt != some 0)) (placeStop g d)) := by
  unfold transactionEnds
  rw [txn_conversation hw hphase hp hstep, hw]
  simp only [conversationTxnEnds, hphase, hstep]
  rfl

/-- Settles O46: a conversation's transaction is judged and classified, a sweep's finds a responder or none. -/
theorem transactionEndIsJudgedAndActedOn : Obligations.TransactionEndIsJudgedAndActedOn := by
  intro s g nakAt received
  have run : ∀ {t : Device}, transactionEnds g nakAt received s.dev = t →
      exec (.transactionEnd g nakAt received) s = .next { s with dev := t } := fun h => h ▸ exec_event rfl s
  refine ⟨fun hw => run ?_, fun h ctx readHalf pec pos step hw hphase hp hstep =>
    run (transactionEnds_conversation nakAt received hw hphase hp hstep), fun pos hw hp hnak => ?_, fun pos b rest hw hp hnak hrec => ?_⟩
  · unfold transactionEnds
    rw [txn_nothing hw]
    rfl
  · have key : transactionEnds g nakAt received s.dev = _ :=
      (transactionEnds_sweep nakAt received hw hp).trans (by rw [hnak, sweepEnds_nak, emptySweep_eq])
    refine ⟨fun ha => run (key.trans (if_pos ha)), fun ha hn => run (key.trans ?_), fun ha hn => run (key.trans ?_)⟩
    · rw [if_neg (by simp [ha]), if_pos hn]
      rfl
    · rw [if_neg (by simp [ha]), if_neg (by omega)]
      rfl
  · have key : transactionEnds g nakAt received s.dev = _ :=
      (transactionEnds_sweep nakAt received hw hp).trans (by rw [hnak, hrec, sweepEnds_byte])
    exact ⟨fun hno => run (key.trans (responder_unknown (lookup_eq_none hno))),
      fun i hv hs ha hlow => run (key.trans (responder_known (lookup_eq_some hv hs ha hlow)))⟩

/-! ## ARB_LOST -/

/-- Settles O48: the address event leaves the conversation as it is, and its stop request and budget decide. -/
theorem arbitrationLossRepeatsOrEnds : Obligations.ArbitrationLossRepeatsOrEnds := by
  intro s g k
  have run : ∀ {t : Device}, losesArbitration g k s.dev = t → exec (.arbLost g k) s = .next { s with dev := t } :=
    fun h => h ▸ exec_event rfl s
  refine ⟨fun hw => run ?_, fun pos hw hp hk => run ?_, fun h ctx readHalf pec pos step hw hphase hp hstep hk => ?_⟩
  · unfold losesArbitration
    rw [txn_nothing hw]
    rfl
  · unfold losesArbitration endSweep
    rw [txn_sweep hw hp, hw, hk]
    simp only [updSeg_updSeg]
    rfl
  · have key : losesArbitration g k s.dev = afterArbLost g h ctx (addressEvent (s.dev.conv h).target (if k = 0 then none else some true)
        (s.dev.updSeg g fun x => { x with owner := .taken, freeCount := false })) := by
      unfold losesArbitration
      rw [txn_conversation hw hphase hp hstep, hw, Option.any_some, if_pos (decide_eq_true hk)]
    have hconv : _ = s.dev.conv h := addressEvent_conv (s.dev.conv h).target (if k = 0 then none else some true) h
      (s.dev.updSeg g fun x => { x with owner := .taken, freeCount := false })
    refine ⟨fun hs hl => ⟨targetPec (addressEvent (s.dev.conv h).target (if k = 0 then none else some true)
        (s.dev.updSeg g fun x => { x with owner := .taken, freeCount := false })) (s.dev.conv h).target, run (key.trans ?_)⟩,
      fun hs hl => run (key.trans ?_), fun cause hs => run (key.trans ?_)⟩
    · simp only [afterArbLost, setTransaction, hconv, hs, if_pos hl]
      rfl
    · simp only [afterArbLost, hconv, hs, if_neg (Nat.not_lt.mpr hl)]
      rfl
    · simp only [afterArbLost, hconv, hs]
      rfl

end Sys2Proof.Machine
end

section
/-! PROOFS. What clearing the shadow bank and copying the active one do to the references (R8, R126, R133, R134). -/

namespace Sys2Proof.Machine

variable {d t : Device}

/-! ## One reference less -/

/-- The entry after the loss of one reference (R8, R17). -/
def Entry.released (e : Entry) : Entry := if e.presence = .withdrawing ∧ e.refs ≤ 1 then .vacant else { e with refs := e.refs - 1 }

theorem releaseRef_entry (i j : TargetId) (d : Device) :
    (releaseRef i d).entry j = if i = j then (d.entry j).released else d.entry j := by
  unfold releaseRef Entry.released
  by_cases hij : i = j
  · subst hij
    rw [if_pos rfl]
    dsimp only
    split <;> simp
  · rw [if_neg hij]
    dsimp only
    split <;> simp [updEntry_entry, hij]

theorem releaseRef_reports {i : TargetId} (h : (d.entry i).presence ≠ .withdrawing) : (releaseRef i d).reports = d.reports := by
  unfold releaseRef
  rw [if_neg fun e => h e.1]
  rfl

theorem released_presence {e : Entry} (h : e.presence ≠ .withdrawing) : e.released.presence = e.presence := by
  rw [Entry.released, if_neg fun w => h w.1]

/-- The entry after the loss of several references: VACANT if it was WITHDRAWING and they were all it had. -/
theorem released_iterate (e : Entry) (n : Nat) : Entry.released^[n] e =
    if e.presence = .withdrawing ∧ n ≠ 0 ∧ e.refs ≤ n then .vacant else { e with refs := e.refs - n } := by
  induction n with
  | zero => simp
  | succ n ih =>
    rw [Function.iterate_succ_apply', ih]
    by_cases hw : e.presence = .withdrawing
    · by_cases hn : n ≠ 0 ∧ e.refs ≤ n
      · rw [if_pos ⟨hw, hn⟩, if_pos ⟨hw, by omega⟩]
        rfl
      · rw [if_neg fun h => hn h.2]
        by_cases hlast : e.refs ≤ n + 1
        · rw [if_pos ⟨hw, by omega, hlast⟩, Entry.released, if_pos ⟨hw, by show e.refs - n ≤ 1; omega⟩]
        · rw [if_neg fun h => hlast h.2.2, Entry.released, if_neg fun h => hlast (by have : e.refs - n ≤ 1 := h.2; omega)]
          rfl
    · rw [if_neg fun h => hw h.1, if_neg fun h => hw h.1, Entry.released, if_neg fun h => hw h.1]
      rfl

theorem released_iterate_toNat (e : Entry) (b : Bool) : (if b = true then e.released else e) = Entry.released^[b.toNat] e := by
  cases b <;> rfl

theorem SlotsKept.pool (h : SlotsKept d t) : t.pool = d.pool := table_ext h.slot
theorem SlotsKept.segments (h : SlotsKept d t) : t.segments = d.segments := table_ext h.seg

/-! ## CLEAR_SHADOW (R133) -/

theorem clearShadowEntry_entry (k : PollId) (d : Device) (i : TargetId) :
    (clearShadowEntry k d).entry i = Entry.released^[(pollNames (d.poll d.schedule.shadow k) i).toNat] (d.entry i) := by
  unfold clearShadowEntry
  split
  · next h => rw [h]; rfl
  · next e h =>
    rw [releaseRef_entry, h, ← released_iterate_toNat]
    simp [pollNames]

theorem clearShadowEntry_reports {k : PollId}
    (h : ∀ i, pollNames (d.poll d.schedule.shadow k) i = true → (d.entry i).presence ≠ .withdrawing) :
    (clearShadowEntry k d).reports = d.reports := by
  unfold clearShadowEntry
  split
  · rfl
  · next e he => exact releaseRef_reports (d := d.setPoll d.schedule.shadow k none) (h _ (by simp [he, pollNames]))

/-- How many of these entries of a bank name a target. -/
def Device.named (d : Device) (bank : Bank) (l : List PollId) (i : TargetId) : Nat := l.countP fun k => pollNames (d.poll bank k) i

/-- The entries of the shadow bank with the indices of `l` are cleared, one after the other. -/
structure ShadowCleared (l : List PollId) (d t : Device) : Prop where
  entry : ∀ i, t.entry i = Entry.released^[d.named d.schedule.shadow l i] (d.entry i)
  poll : ∀ bank k, t.poll bank k = if d.schedule.shadow = bank ∧ k ∈ l then none else d.poll bank k
  reports : (∀ i, d.named d.schedule.shadow l i ≠ 0 → (d.entry i).presence ≠ .withdrawing) → t.reports = d.reports
  kept : SlotsKept d t

theorem shadowCleared_foldl {l : List PollId} (hl : l.Nodup) (d : Device) :
    ShadowCleared l d (l.foldl (fun d k => clearShadowEntry k d) d) := by
  induction l generalizing d with
  | nil => exact ⟨fun _ => rfl, fun _ _ => by simp, fun _ => rfl, .refl d⟩
  | cons k l ih =>
    obtain ⟨hk, hl⟩ := List.nodup_cons.mp hl
    obtain ⟨entry, poll, reports, kept⟩ := ih hl (clearShadowEntry k d)
    have first := clearShadowEntry_slotsKept k d
    rw [first.shadow] at entry poll reports
    have hrest : ∀ i, (clearShadowEntry k d).named d.schedule.shadow l i = d.named d.schedule.shadow l i := fun i =>
      List.countP_congr fun j hj => by
        rw [clearShadowEntry_poll, if_neg fun (e : _ ∧ k = j) => hk (e.2 ▸ hj)]
    have hcons : ∀ i, d.named d.schedule.shadow (k :: l) i =
        d.named d.schedule.shadow l i + (pollNames (d.poll d.schedule.shadow k) i).toNat := fun i => by
      simp only [Device.named, List.countP_cons, Bool.toNat, Bool.cond_eq_ite]
    refine ⟨fun i => ?_, fun bank j => ?_, fun h => ?_, first.trans kept⟩
    · rw [List.foldl_cons, entry, hrest, clearShadowEntry_entry, hcons, Function.iterate_add_apply]
    · rw [List.foldl_cons, poll, clearShadowEntry_poll]
      by_cases hb : d.schedule.shadow = bank
      · by_cases hj : k = j <;> simp [hb, hj, eq_comm (a := j)]
      · simp [hb]
    · have hfirst : (clearShadowEntry k d).reports = d.reports := clearShadowEntry_reports fun i hi => h i (by rw [hcons, hi]; simp)
      rw [List.foldl_cons, reports fun i hi => ?_, hfirst]
      have hw : (d.entry i).presence ≠ .withdrawing := h i (by rw [hcons]; rw [hrest] at hi; omega)
      rw [clearShadowEntry_entry, ← released_iterate_toNat]
      split
      · rwa [released_presence hw]
      · exact hw

theorem clearShadow_cleared (d : Device) : ShadowCleared (List.finRange 48) d (clearShadow d) :=
  shadowCleared_foldl (List.nodup_finRange 48) d

/-! ## COPY_ACTIVE (R134) -/

theorem copyEntry_unused {k : PollId} (ha : d.poll d.schedule.active k = none) : copyEntry d k = d := by rw [copyEntry, ha]

/-- The copy of a used entry into an empty place. -/
theorem copyEntry_used {k : PollId} {e : PollEntry} (h : d.poll d.schedule.shadow k = none) (ha : d.poll d.schedule.active k = some e) :
    copyEntry d k = raiseRef e.config.target (d.setPoll d.schedule.shadow k (some (.fresh e.config))) := by
  simp only [copyEntry, ha, writeShadowEntry, clearShadowEntry, h]

/-- The entries of the active bank with the indices of `l` are copied into the shadow bank, one after the other. -/
structure ActiveCopied (l : List PollId) (d t : Device) : Prop where
  entry : ∀ i, t.entry i = { d.entry i with refs := (d.entry i).refs + d.named d.schedule.active l i }
  poll : ∀ bank k, t.poll bank k = if d.schedule.shadow = bank ∧ k ∈ l then (d.poll d.schedule.active k).map fun e => .fresh e.config
    else d.poll bank k
  reports : t.reports = d.reports
  kept : SlotsKept d t

theorem shadow_ne_active (s : Schedule) : s.shadow ≠ s.active := other_ne _

theorem copyEntry_copied {k : PollId} (h : d.poll d.schedule.shadow k = none) : ActiveCopied [k] d (copyEntry d k) := by
  cases ha : d.poll d.schedule.active k with
  | none =>
    rw [copyEntry_unused ha]
    refine ⟨fun i => by simp [Device.named, ha, pollNames], fun bank j => ?_, rfl, .refl d⟩
    split
    · next hj =>
      obtain ⟨hb, hj⟩ := hj
      rw [List.mem_singleton] at hj
      rw [← hb, hj, ha, h]
      rfl
    · rfl
  | some e =>
    rw [copyEntry_used h ha]
    refine ⟨fun i => ?_, fun bank j => ?_, rfl, (setPoll_slotsKept ..).trans (raiseRef_slotsKept ..)⟩
    · simp only [raiseRef, updEntry_entry, setPoll_entry_frame, Device.named, List.countP_singleton, ha, pollNames, Option.any_some,
        beq_iff_eq]
      split <;> rfl
    · show (d.setPoll _ k _).poll bank j = _
      rw [setPoll_poll]
      by_cases hj : k = j
      · subst hj
        simp [ha]
      · simp [hj, Ne.symm hj]

theorem activeCopied_foldl {l : List PollId} (hl : l.Nodup) (d : Device) (hempty : ∀ k ∈ l, d.poll d.schedule.shadow k = none) :
    ActiveCopied l d (l.foldl copyEntry d) := by
  induction l generalizing d with
  | nil => exact ⟨fun _ => rfl, fun _ _ => by simp, rfl, .refl d⟩
  | cons k l ih =>
    obtain ⟨hk, hl⟩ := List.nodup_cons.mp hl
    obtain ⟨entry1, poll1, reports1, kept1⟩ := copyEntry_copied (hempty k List.mem_cons_self)
    have hpoll : ∀ j ∈ l, ∀ bank, (copyEntry d k).poll bank j = d.poll bank j := fun j hj bank => by
      rw [poll1, if_neg fun (e : _ ∧ j ∈ [k]) => hk (List.mem_singleton.mp e.2 ▸ hj)]
    obtain ⟨entry, poll, reports, kept⟩ := ih hl (copyEntry d k) fun j hj => by
      rw [kept1.shadow, hpoll j hj, hempty j (List.mem_cons_of_mem _ hj)]
    rw [kept1.active] at entry
    rw [kept1.shadow, kept1.active] at poll
    have hrest : ∀ i, (copyEntry d k).named d.schedule.active l i = d.named d.schedule.active l i := fun i =>
      List.countP_congr fun j hj => by rw [hpoll j hj]
    refine ⟨fun i => ?_, fun bank j => ?_, reports.trans reports1, kept1.trans kept⟩
    · rw [List.foldl_cons, entry, hrest, entry1]
      simp only [Device.named, List.countP_cons, List.countP_nil]
      congr 1
      omega
    · rw [List.foldl_cons, poll]
      have hactive : (copyEntry d k).poll d.schedule.active j = d.poll d.schedule.active j := by
        rw [poll1, if_neg fun e => shadow_ne_active _ e.1]
      rw [hactive, poll1]
      by_cases hb : d.schedule.shadow = bank
      · by_cases hj : j = k <;> simp [hb, hj]
      · simp [hb]

/-- The shadow bank after COPY_ACTIVE holds the active bank's entries afresh, and the references follow. -/
theorem copyActive_copied (d : Device) :
    ActiveCopied (List.finRange 48) (clearShadow d) ((List.finRange 48).foldl copyEntry (clearShadow d)) :=
  activeCopied_foldl (List.nodup_finRange 48) _ fun k _ => by
    rw [(clearShadow_cleared d).kept.shadow, (clearShadow_cleared d).poll, if_pos ⟨rfl, List.mem_finRange k⟩]

end Sys2Proof.Machine
end

section
/-! PROOFS. The poll entries: edited, read back, and evaluated at a frame boundary (R8, R124, R126, R130, R132 to R135, R139 to R142). -/

namespace Sys2Proof.Machine

variable {d t : Device}

/-! ## Two updates of one place -/

theorem upd_upd {α : Type} {n : Nat} (v : Vector α n) (i : Fin n) (f f' : α → α) : upd (upd v i f) i f' = upd v i fun x => f' (f x) :=
  table_ext fun j => by
    simp only [upd_get]
    split <;> rfl

theorem updSlot_updSlot (d : Device) (k : SlotId) (f f' : Slot → Slot) : (d.updSlot k f).updSlot k f' = d.updSlot k fun x => f' (f x) := by
  unfold Device.updSlot
  rw [upd_upd]

theorem setPoll_setPoll (d : Device) (bank : Bank) (k : PollId) (e e' : Option PollEntry) :
    (d.setPoll bank k e).setPoll bank k e' = d.setPoll bank k e' := by
  unfold Device.setPoll Device.updSchedule Schedule.updBank
  cases bank <;> simp only [upd_upd]

theorem releaseRef_setPoll (i : TargetId) (bank : Bank) (k : PollId) (e : Option PollEntry) (d : Device) :
    releaseRef i (d.setPoll bank k e) = (releaseRef i d).setPoll bank k e := by
  simp only [releaseRef, setPoll_entry_frame, apply_ite (Device.setPoll bank k e)]
  rfl

/-! ## PUT_POLL and CLEAR_POLL (R132, R133) -/

theorem classOf_code (c : Class) : classOf c.code = some c := by cases c <;> rfl
theorem policyOf_code (p : Policy) : policyOf p.code = some p := by cases p <;> rfl
theorem bankOf_code (bank : Bank) : bankOf bank.code = some bank := by cases bank <;> rfl

/-- The body of a PUT_POLL (10 R181). -/
def putPollBody (i : PollId) (target : TargetId) (cmd length : Byte) (period phase : Half) (policy : Policy) (cls : Class)
    (m0 m1 m2 m3 : Byte) : List Byte :=
  [byte i.val, byte target.val, cmd, length] ++ le16 period ++ le16 phase ++ [policy.code, cls.code, m0, m1, m2, m3]

theorem pollConfigAt_body (i : PollId) (target : TargetId) (cmd length : Byte) (period phase : Half) (policy : Policy) (cls : Class)
    (m0 m1 m2 m3 : Byte) : pollConfigAt (putPollBody i target cmd length period phase policy cls m0 m1 m2 m3) =
      if 1 ≤ length.toNat ∧ length.toNat ≤ 4 ∧ 1 ≤ period.toNat ∧ period.toNat ≤ 1000 ∧ phase.toNat < period.toNat then
        some ⟨target, cmd, length.toNat, period.toNat, phase.toNat, [m0, m1, m2, m3].take length.toNat, policy, cls⟩
      else none := by
  have htarget : index 64 (byteAt (putPollBody i target cmd length period phase policy cls m0 m1 m2 m3) 1) = some target :=
    index_byte target (by decide)
  have hpolicy : policyOf (byteAt (putPollBody i target cmd length period phase policy cls m0 m1 m2 m3) 8) = some policy :=
    policyOf_code policy
  have hcls : classOf (byteAt (putPollBody i target cmd length period phase policy cls m0 m1 m2 m3) 9) = some cls := classOf_code cls
  have hperiod : halfAt (putPollBody i target cmd length period phase policy cls m0 m1 m2 m3) 4 = period := ofLe16_le16 period
  have hphase : halfAt (putPollBody i target cmd length period phase policy cls m0 m1 m2 m3) 6 = phase := ofLe16_le16 phase
  unfold pollConfigAt
  rw [htarget, hpolicy, hcls, hperiod, hphase]
  refine if_congr ?_ rfl rfl
  simp only [within, Bool.and_eq_true, decide_eq_true_eq, and_assoc]
  rfl

theorem writeShadowEntry_unused {k : PollId} {c : PollConfig} (h : d.poll d.schedule.shadow k = none) :
    writeShadowEntry k c d = raiseRef c.target (d.setPoll d.schedule.shadow k (some (.fresh c))) := by
  simp only [writeShadowEntry, clearShadowEntry, h]

theorem writeShadowEntry_used {k : PollId} {c : PollConfig} {e : PollEntry} (h : d.poll d.schedule.shadow k = some e) :
    writeShadowEntry k c d = raiseRef c.target ((releaseRef e.config.target d).setPoll d.schedule.shadow k (some (.fresh c))) := by
  have hclear : clearShadowEntry k d = (releaseRef e.config.target d).setPoll d.schedule.shadow k none := by
    simp only [clearShadowEntry, h, releaseRef_setPoll]
  show raiseRef c.target ((clearShadowEntry k d).setPoll (clearShadowEntry k d).schedule.shadow k _) = _
  rw [(clearShadowEntry_slotsKept k d).shadow, hclear, setPoll_setPoll]

theorem clearShadowEntry_unused {k : PollId} (h : d.poll d.schedule.shadow k = none) : clearShadowEntry k d = d := by
  simp only [clearShadowEntry, h]

theorem clearShadowEntry_used {k : PollId} {e : PollEntry} (h : d.poll d.schedule.shadow k = some e) :
    clearShadowEntry k d = releaseRef e.config.target (d.setPoll d.schedule.shadow k none) := by simp only [clearShadowEntry, h]

theorem requestClearPoll_index (k : PollId) (d : Device) : requestClearPoll [byte k.val] d =
    if d.schedule.swapPending then (refuse .swapPending, d)
    else (⟨.ok, [flagByte (d.poll d.schedule.shadow k).isSome]⟩, clearShadowEntry k d) := by
  unfold requestClearPoll
  rw [show index 48 (byteAt [byte k.val] 0) = some k from index_byte k (by decide)]

/-! ## READ_POLL (R135) -/

theorem requestReadPoll_index (bank : Bank) (k : PollId) (d : Device) : requestReadPoll [bank.code, byte k.val] d =
    (⟨.ok, d.schedule.bytes ++ flagByte (d.poll bank k).isSome ::
      (((d.poll bank k).map PollEntry.bytes).getD (List.replicate 24 0#8))⟩, d) := by
  unfold requestReadPoll
  rw [show bankOf (byteAt [bank.code, byte k.val] 0) = some bank from bankOf_code bank,
    show index 48 (byteAt [bank.code, byte k.val] 1) = some k from index_byte k (by decide)]

/-! ## The schedule's own state across an evaluation and the selections (R130) -/

/-- The schedule's own state: all but the banks. -/
def Schedule.own (s : Schedule) : Bool × Nat × Word × Option Nat × Bank × Bool :=
  (s.running, s.frameLength, s.frame, s.timer, s.active, s.swapPending)

theorem SlotsKept.own (h : SlotsKept d t) : t.schedule.own = d.schedule.own := by
  simp only [Schedule.own, h.running, h.frameLength, h.frame, h.timer, h.active, h.swapPending]

theorem setPoll_own (bank : Bank) (k : PollId) (e : Option PollEntry) (d : Device) : (d.setPoll bank k e).schedule.own = d.schedule.own :=
  (setPoll_slotsKept ..).own

theorem endConversation_own (g : SegId) (h : Handle) (ctx : Context) (o : ConvOutcome) (n : Option Nat) (d : Device) :
    (endConversation g h ctx o n d).schedule.own = d.schedule.own :=
  (finish_oneSlot h.slot ⟨o, ctx.completed, n, ctx.readData, ctx.lastValue⟩ d).kept.own

theorem enterStep_own (g : SegId) (h : Handle) (ctx : Context) (d : Device) : (enterStep g h ctx d).schedule.own = d.schedule.own := by
  unfold enterStep
  split
  · exact endConversation_own ..
  · split
    · exact endConversation_own ..
    · rfl
  · unfold enterWaitFree
    split
    · exact endConversation_own ..
    · rfl

theorem makeSelection_own (g : SegId) (d : Device) : (makeSelection g d).schedule.own = d.schedule.own := by
  unfold makeSelection
  split
  · split
    · unfold startSweep
      dsimp only
      split <;> rfl
    · unfold startConversation
      dsimp only
      split
      · split
        · rfl
        · exact enterStep_own ..
      · rfl
  · rfl
  · rfl

theorem selectAfterJoins_own (before d : Device) : (selectAfterJoins before d).schedule.own = d.schedule.own :=
  foldl_keeps (P := fun t => t.schedule.own = d.schedule.own) (d := d) (selectIfJoined before) (fun t g ht => by
    unfold selectIfJoined
    split
    · exact ht
    · rw [makeSelection_own, ht]) _ rfl

theorem handleDue_own (bank : Bank) (k : PollId) (e : PollEntry) (d : Device) :
    (handleDue bank k e d).schedule.own = d.schedule.own := by
  unfold handleDue applyFailure createInstance
  split
  · dsimp only
    rw [setPoll_own]
    split <;> rfl
  · split
    · dsimp only
      rw [setPoll_own]
      split <;> rfl
    · split
      · dsimp only
        rw [setPoll_own]
        split <;> rfl
      · dsimp only
        rw [setPoll_own]
        rfl

theorem evaluateFrame_own (d : Device) : (evaluateFrame d).schedule.own = d.schedule.own :=
  foldl_keeps (P := fun t => t.schedule.own = d.schedule.own) (d := d) evaluateEntry (fun t k ht => by
    unfold evaluateEntry
    split
    · exact ht
    · split
      · rw [handleDue_own, ht]
      · exact ht) _ rfl

/-! ## A due entry (R139 to R142) -/

theorem lowestFree_eq_none (h : ∀ i, (d.slot i).state ≠ .free) : lowestFree d = none := by
  simpa [lowestFree, List.find?_eq_none] using h

theorem lowestFree_isSome (h : ¬ ∀ i, (d.slot i).state ≠ .free) : ∃ i, lowestFree d = some i := by
  rw [← Option.isSome_iff_exists]
  simpa [lowestFree] using h

theorem lowestFree_eq_some {i : SlotId} (hi : (d.slot i).state = .free) (hlow : ∀ j, j < i → (d.slot j).state ≠ .free) :
    lowestFree d = some i := find_finRange (by simp [hi]) fun j hj => by simp [hlow j hj]

section
variable {bank : Bank} {k : PollId} {e : PollEntry}

theorem evaluateEntry_active (hactive : d.schedule.active = bank) (h : d.poll bank k = some e) :
    evaluateEntry d k = if d.schedule.frame.toNat % e.config.period = e.config.phase then handleDue bank k e d else d := by
  unfold evaluateEntry
  simp only [hactive, h, PollEntry.dueIn, beq_iff_eq]

theorem handleDue_overrun (h : e.outstanding ≠ none) : handleDue bank k e d =
    (if e.overrun = 0 then post (.pollOverrun bank k) d else d).setPoll bank k (some { e with overrun := satInc255 e.overrun }) := by
  obtain ⟨o, ho⟩ := Option.ne_none_iff_exists'.mp h
  simp only [handleDue, ho]

theorem handleDue_skipped (h : e.outstanding = none) (hno : ∀ i, (d.slot i).state ≠ .free) : handleDue bank k e d =
    (if e.skipReported then d else post (.pollSkipped bank k) d).setPoll bank k (some { e with skipReported := true }) := by
  simp only [handleDue, h, lowestFree_eq_none hno]

theorem handleDue_off (h : e.outstanding = none) (hsome : ¬ ∀ i, (d.slot i).state ≠ .free)
    (hoff : (d.seg (d.entry e.config.target).segment).state = .off) : handleDue bank k e d =
      (if e.failing then d else post (.pollFailed bank k .segmentOff) d).setPoll bank k (some { e with failing := true }) := by
  obtain ⟨i, hi⟩ := lowestFree_isSome hsome
  have hcase : handleDue bank k e d = applyFailure bank k e .segmentOff d := by simp only [handleDue, h, hi, if_pos hoff]
  rw [hcase]
  rfl

theorem skipReported_same (h : e.skipReported = true) : { e with skipReported := true } = e := by
  cases e
  simp only at h
  rw [h]

theorem failing_same (h : e.failing = true) : { e with failing := true } = e := by
  cases e
  simp only at h
  rw [h]

theorem enqueue_eq (c : Class) (h : Handle) : Segment.enqueue c h = fun g =>
    match c with
    | .urgent => { g with urgent := g.urgent ++ [h] }
    | .normal => { g with normal := g.normal ++ [h] } := by
  cases c <;> rfl

/-- The record of a poll conversation once it is queued (R33). -/
def instanceQueued (bank : Bank) (k : PollId) (c : PollConfig) (frameLength : Nat) : Conv :=
  { instanceConv bank k c frameLength with deadlineTimer := some (instanceDeadline c frameLength) }

/-- A conversation placed in a slot is queued: its slot, its reference and its place in the list. -/
theorem queueConversation_placed (i : SlotId) (st : SlotState) {c : Conv} {j : TargetId} (hc : c.target = .directory j) :
    queueConversation i (placeConversation i st c d) =
      (raiseRef j (d.updSlot i fun x => ⟨x.gen, .queued, { c with assemblyTimer := none, deadlineTimer := c.deadline }⟩)).updSeg
        (d.entry j).segment (Segment.enqueue c.cls (d.handle i)) := by
  have hplace : placeConversation i st c d = raiseRef j (d.updSlot i fun s => { s with state := st, conv := c }) := by
    rw [placeConversation, hc]
    rfl
  have hmerge := updSlot_updSlot d i (fun s => { s with state := st, conv := c })
    fun s => { s with state := .queued, conv := { s.conv with assemblyTimer := none, deadlineTimer := s.conv.deadline } }
  have hentry : ((placeConversation i st c d).entry j).segment = (d.entry j).segment := by
    rw [hplace, raiseRef, updEntry_entry_same]
    rfl
  have hhandle : (placeConversation i st c d).handle i = d.handle i := by rw [Device.handle, placeConversation_slot]; rfl
  have hqueue : queueConversation i (placeConversation i st c d) =
      ((placeConversation i st c d).updSlot i fun s =>
        { s with state := .queued, conv := { s.conv with assemblyTimer := none, deadlineTimer := s.conv.deadline } }).updSeg
        ((placeConversation i st c d).entry j).segment (Segment.enqueue c.cls ((placeConversation i st c d).handle i)) := by
    unfold queueConversation
    dsimp only
    rw [placeConversation_slot]
    dsimp only
    rw [hc, Device.handle, updSlot_slot_same]
    rfl
  rw [hqueue, hentry, hhandle, hplace]
  exact congrArg (fun t => (raiseRef j t).updSeg (d.entry j).segment (Segment.enqueue c.cls (d.handle i))) hmerge

theorem createInstance_eq (i : SlotId) : createInstance bank k e i d =
    (((raiseRef e.config.target (d.updSlot i fun x => ⟨x.gen, .queued, instanceQueued bank k e.config d.schedule.frameLength⟩)).updSeg
      (d.entry e.config.target).segment (Segment.enqueue e.config.cls (d.handle i))).setPoll bank k
        (some { e with outstanding := some (d.handle i), skipReported := false })) := by
  have hqueue := queueConversation_placed (d := d) i .queued (c := instanceConv bank k e.config d.schedule.frameLength)
    (j := e.config.target) rfl
  have hhandle : ∀ f : Slot → Slot, (∀ x, (f x).gen = x.gen) → ∀ g u, (((raiseRef e.config.target (d.updSlot i f)).updSeg g u).handle i) =
      d.handle i := fun f hf g u => by
    show (⟨i, ((d.updSlot i f).slot i).gen⟩ : Handle) = ⟨i, (d.slot i).gen⟩
    rw [updSlot_slot_same, hf]
  unfold createInstance
  rw [hqueue]
  dsimp only
  rw [hhandle (fun x => ⟨x.gen, .queued, _⟩) fun _ => rfl]
  rfl

theorem handleDue_created {i : SlotId} (h : e.outstanding = none) (hi : (d.slot i).state = .free)
    (hlow : ∀ j, j < i → (d.slot j).state ≠ .free) (hon : (d.seg (d.entry e.config.target).segment).state ≠ .off) :
    handleDue bank k e d = createInstance bank k e i d := by
  simp only [handleDue, h, lowestFree_eq_some hi hlow, if_neg hon]

end

theorem swapIfPending_own (d : Device) : (swapIfPending d).schedule.own =
    (d.schedule.running, d.schedule.frameLength, d.schedule.frame, d.schedule.timer,
      if d.schedule.swapPending then d.schedule.active.other else d.schedule.active, false) := by
  unfold swapIfPending
  split
  · next h =>
    obtain ⟨h1, h2, h3, h4, h5, -⟩ := updBank_kept { d.schedule with active := d.schedule.shadow } d.schedule.shadow
      fun v => mapTable (fun i e => carryOver ((d.schedule.bank d.schedule.active).get i) e) v
    simp only [Schedule.own, Prod.mk.injEq]
    exact ⟨h1, h2, h3, h4, h5, rfl⟩
  · next h =>
    rw [Bool.not_eq_true] at h
    simp only [Schedule.own, h]

/-- The schedule's own state after a frame boundary (R130). -/
theorem frameBoundary_own (d : Device) : (frameBoundary d).schedule.own =
    (d.schedule.running, d.schedule.frameLength, d.schedule.frame + 1#32, some d.schedule.frameLength,
      if d.schedule.swapPending then d.schedule.active.other else d.schedule.active, false) := by
  have h := (evaluateFrame_own _).trans (swapIfPending_own (d.updSchedule fun x => { x with frame := x.frame + 1#32 }))
  unfold frameBoundary
  dsimp only
  generalize evaluateFrame _ = t at h ⊢
  simp only [Schedule.own, Prod.mk.injEq, updSchedule_schedule] at h ⊢
  obtain ⟨h1, h2, h3, -, h5, h6⟩ := h
  exact ⟨h1, h2, h3, congrArg some h2, h5, h6⟩

/-! ## The requests and the event -/

theorem requestPutPoll_body (i : PollId) (target : TargetId) (cmd length : Byte) (period phase : Half) (policy : Policy) (cls : Class)
    (m0 m1 m2 m3 : Byte) (d : Device) : requestPutPoll (putPollBody i target cmd length period phase policy cls m0 m1 m2 m3) d =
      if 1 ≤ length.toNat ∧ length.toNat ≤ 4 ∧ 1 ≤ period.toNat ∧ period.toNat ≤ 1000 ∧ phase.toNat < period.toNat then
        if d.schedule.swapPending then (refuse .swapPending, d)
        else if (d.entry target).presence = .vacant then (refuse .unknownTarget, d)
        else if (d.entry target).presence = .withdrawing then (refuse .targetGone, d)
        else (⟨.ok, [byte i.val]⟩, writeShadowEntry i
          ⟨target, cmd, length.toNat, period.toNat, phase.toNat, [m0, m1, m2, m3].take length.toNat, policy, cls⟩ d)
      else (refuse .badField, d) := by
  have hindex : index 48 (byteAt (putPollBody i target cmd length period phase policy cls m0 m1 m2 m3) 0) = some i :=
    index_byte i (by decide)
  unfold requestPutPoll
  rw [pollConfigAt_body, hindex]
  by_cases h : 1 ≤ length.toNat ∧ length.toNat ≤ 4 ∧ 1 ≤ period.toNat ∧ period.toNat ≤ 1000 ∧ phase.toNat < period.toNat
  · simp only [if_pos h]
  · simp only [if_neg h]

theorem exec_frameBoundary_idle {s : State} (h : s.dev.schedule.running = false ∨ s.dev.schedule.timer = none) :
    exec .frameBoundary s = .next s := by
  have hoff : (s.dev.schedule.running && s.dev.schedule.timer.isSome) = false := by obtain h | h := h <;> simp [h]
  rw [exec_event rfl s, if_neg (by simp [hoff])]

theorem exec_frameBoundary {s : State} {n : Nat} (hr : s.dev.schedule.running = true) (ht : s.dev.schedule.timer = some n) :
    exec .frameBoundary s = .next { s with dev := selectAfterJoins s.dev (frameBoundary s.dev) } := by
  rw [exec_event rfl s, if_pos (by simp [hr, ht])]

/-- Settles O58: the requests by their checks, the boundary by its parts, a due entry by the first of its four cases. -/
theorem pollEntriesAreEditedReadAndEvaluated : Obligations.PollEntriesAreEditedReadAndEvaluated := by
  refine ⟨?_, ?_, ?_, ?_, fun _ => exec_frameBoundary_idle, ?_, fun _ => rfl, ?_, fun _ _ => rfl, ?_⟩
  · intro s tag cmd m0 m1 m2 m3 i target length period phase policy cls o ha c inRange config shadow put
    have run : ∀ (r : Reply) {t : Device}, requestPutPoll (putPollBody i target cmd length period phase policy cls m0 m1 m2 m3)
        (found o s.dev) = (r, t) → exec c s = replyTo s 0xC3#8 tag (r.status.code :: r.fields) t :=
      fun r _ h => request_reply .putPoll _ r rfl rfl rfl (by simp [le16]) ha rfl h
    have key := requestPutPoll_body i target cmd length period phase policy cls m0 m1 m2 m3 (found o s.dev)
    have hswap : (found o s.dev).schedule.swapPending = s.dev.schedule.swapPending := rfl
    rw [hswap, found_entry] at key
    refine ⟨fun h => run (refuse .badField) (key.trans (if_neg h)), fun h hp => run (refuse .swapPending) ?_,
      fun h hp hv => run (refuse .unknownTarget) ?_, fun h hp hw => run (refuse .targetGone) ?_, fun h hp hv hw => ?_⟩
    · rw [key, if_pos h, if_pos hp]
    · rw [key, if_pos h, hp, if_neg (by decide), if_pos hv]
    · rw [key, if_pos h, hp, if_neg (by decide), if_neg (by rw [hw]; decide), if_pos hw]
    · rw [if_pos h, hp, if_neg (by decide), if_neg hv, if_neg hw] at key
      exact ⟨fun he => run ⟨.ok, [byte i.val]⟩ (key.trans (by rw [writeShadowEntry_unused (d := found o s.dev) he]; rfl)),
        fun e he => run ⟨.ok, [byte i.val]⟩ (key.trans (by rw [writeShadowEntry_used (d := found o s.dev) he]; rfl))⟩
  · intro s tag i o ha shadow
    have run : ∀ (r : Reply) {t : Device}, requestClearPoll [byte i.val] (found o s.dev) = (r, t) →
        exec (.clearPoll tag [byte i.val]) s = replyTo s 0xC4#8 tag (r.status.code :: r.fields) t :=
      fun r _ h => request_reply .clearPoll _ r rfl rfl rfl (by simp) ha rfl h
    have key := requestClearPoll_index i (found o s.dev)
    have hshadow : s.dev.schedule.shadow = shadow := rfl
    rw [found_schedule, found_poll, hshadow] at key
    refine ⟨fun hp => run (refuse .swapPending) ?_, fun hp he => run ⟨.ok, [0#8]⟩ ?_, fun e hp he => run ⟨.ok, [flagByte true]⟩ ?_⟩
    · rw [key, if_pos hp]
    · rw [key, hp, if_neg (by decide), clearShadowEntry_unused (d := found o s.dev) he, he]
      rfl
    · rw [key, hp, if_neg (by decide), clearShadowEntry_used (d := found o s.dev) he, he]
      rfl
  · intro s tag o ha active used
    have runClear : ∀ (r : Reply) {t : Device}, requestClearShadow [] (found o s.dev) = (r, t) →
        exec (.clearShadow tag []) s = replyTo s 0xC5#8 tag (r.status.code :: r.fields) t :=
      fun r _ h => request_reply .clearShadow _ r rfl rfl rfl (by simp) ha rfl h
    have runCopy : ∀ (r : Reply) {t : Device}, requestCopyActive [] (found o s.dev) = (r, t) →
        exec (.copyActive tag []) s = replyTo s 0xC6#8 tag (r.status.code :: r.fields) t :=
      fun r _ h => request_reply .copyActive _ r rfl rfl rfl (by simp) ha rfl h
    refine ⟨fun hp => ⟨runClear (refuse .swapPending) (if_pos hp), runCopy (refuse .swapPending) (if_pos hp)⟩,
      fun hp => ?_⟩
    intro named released noneGoes
    have hp : ¬ (found o s.dev).schedule.swapPending = true := by rw [found_schedule, hp]; decide
    have cleared := clearShadow_cleared (found o s.dev)
    have copied := copyActive_copied (found o s.dev)
    have hentry : ∀ t, (clearShadow (found o s.dev)).entry t = released t := fun t => (cleared.entry t).trans (released_iterate _ _)
    have hactive : ∀ k, (clearShadow (found o s.dev)).poll active k = s.dev.poll active k := fun k => by
      rw [cleared.poll, if_neg fun e => other_ne _ e.1, found_poll]
    have hnamed : ∀ t, (clearShadow (found o s.dev)).named active (List.finRange 48) t = named active t := fun t =>
      List.countP_congr fun k _ => by rw [hactive]; rfl
    refine ⟨⟨_, runClear ⟨.ok, [used active.other]⟩ (if_neg hp), hentry, cleared.reports, fun k => ?_, hactive,
        cleared.kept.active, cleared.kept.pool, cleared.kept.segments⟩,
      ⟨_, runCopy ⟨.ok, [used active]⟩ (if_neg hp), fun t => ?_, fun h => copied.reports.trans (cleared.reports h), fun k => ?_,
        fun k => ?_, copied.kept.active.trans cleared.kept.active, copied.kept.pool.trans cleared.kept.pool,
        copied.kept.segments.trans cleared.kept.segments⟩⟩
    · rw [cleared.poll, if_pos ⟨rfl, List.mem_finRange k⟩]
    · rw [copied.entry, cleared.kept.active, hentry]
      exact congrArg (fun n => { released t with refs := (released t).refs + n }) (hnamed t)
    · rw [copied.poll, cleared.kept.shadow, cleared.kept.active, if_pos ⟨rfl, List.mem_finRange k⟩]
      exact congrArg (Option.map fun e : PollEntry => PollEntry.fresh e.config) (hactive k)
    · rw [copied.poll, cleared.kept.shadow, if_neg fun e => other_ne _ e.1, hactive]
  · intro s tag bank i o ha x head
    have run := request_reply (c := .readPoll tag [bank.code, byte i.val]) (kind := 0xC8#8) .readPoll _ _ rfl rfl rfl (by simp) ha rfl
      (requestReadPoll_index bank i (found o s.dev))
    rw [found_poll] at run
    refine ⟨fun he => run.trans ?_, fun e he => run.trans ?_⟩
    · rw [he]
      rfl
    · rw [he]
      simp only [Schedule.bytes, Option.map_some, Option.getD_some, PollEntry.bytes, valueField, handleField, List.append_assoc,
        List.cons_append, List.nil_append]
      rfl
  · intro s n hr ht counted timed
    have run := exec_frameBoundary hr ht
    refine ⟨fun hp => run.trans ?_, fun hp => run.trans ?_, ⟨_, run, ?_⟩⟩
    · have hnone : swapIfPending counted = counted := if_neg (by show ¬ s.dev.schedule.swapPending = true; simp [hp])
      show Host.Outcome.next { s with dev := selectAfterJoins s.dev (timed (evaluateFrame (swapIfPending counted))) } = _
      rw [hnone]
    · have hswap : swapIfPending counted = (swapBanks counted).updSchedule fun x => { x with swapPending := false } := if_pos hp
      show Host.Outcome.next { s with dev := selectAfterJoins s.dev (timed (evaluateFrame (swapIfPending counted))) } = _
      rw [hswap]
    · have h := (selectAfterJoins_own s.dev _).trans (frameBoundary_own s.dev)
      simp only [Schedule.own, Prod.mk.injEq] at h
      obtain ⟨h1, h2, h3, h4, h5, h6⟩ := h
      exact ⟨h3, h1.trans hr, h4, h6, h5⟩
  · intro d k h
    rw [evaluateEntry, h]
  · intro d bank k e h target noSlot
    refine ⟨fun hb hd => ?_, fun hb hd => ?_, fun ho hz => ?_, fun ho hz => ?_, fun ho hn hs => ?_, fun ho hn hs => ?_,
      fun ho hn hoff hf => ?_, fun ho hn hoff hf => ?_, fun i ho hi hlow hon => ?_⟩
    · rw [evaluateEntry_active hb h, if_neg hd]
    · rw [evaluateEntry_active hb h, if_pos hd]
    · rw [handleDue_overrun ho, if_pos hz, hz]
      rfl
    · rw [handleDue_overrun ho, if_neg hz]
      rfl
    · rw [handleDue_skipped ho hn, hs]
      rfl
    · rw [handleDue_skipped ho hn, if_pos hs]
      exact congrArg (fun e => d.setPoll bank k (some e)) (skipReported_same hs)
    · rw [handleDue_off ho hn hoff, hf]
      rfl
    · rw [handleDue_off ho hn hoff, if_pos hf]
      exact congrArg (fun e => d.setPoll bank k (some e)) (failing_same hf)
    · rw [handleDue_created ho hi hlow hon, createInstance_eq, enqueue_eq]
      rfl

end Sys2Proof.Machine
end

section
/-! PROOFS. The forced withdrawal (R16, R17): what is left of a target once the waiting work on it is cleared, and what the conversation that
runs on it is told. -/

namespace Sys2Proof.Machine

variable {d e t : Device}

/-! ## The entries and the poll entries as a conversation ends (R8, R143) -/

theorem releaseTarget_entry (a : Target) (i : TargetId) (d : Device) :
    (releaseTarget a d).entry i = if a = .directory i then (d.entry i).released else d.entry i := by
  cases a with
  | directory j =>
    show (releaseRef j d).entry i = _
    rw [releaseRef_entry]
    simp
  | raw => simp [releaseTarget]

theorem finish_entry (k : SlotId) (r : ConvResult) (d : Device) (i : TargetId) :
    (finish k r d).entry i = if (d.slot k).conv.target = .directory i then (d.entry i).released else d.entry i := by
  have key := releaseTarget_entry (d.slot k).conv.target i (d.updSlot k fun s => { s with
      state := .done
      conv := { s.conv with result := some r, stop := none, assemblyTimer := none, deadlineTimer := none } })
  unfold finish
  dsimp only
  split
  · exact key
  · split <;> exact key
  · exact key
  · show (takePollResult _ _ _ _ _).entry i = _
    rw [takePollResult_entry]
    exact key

theorem pollNames_iff {p : Option PollEntry} {i : TargetId} : pollNames p i = true ↔ ∃ e, p = some e ∧ e.config.target = i := by
  simp [pollNames, Option.any_eq_true]

/-- A poll entry written over one with the same target names what that one named. -/
theorem setPoll_pollNames {bank : Bank} {k : PollId} {p p' : PollEntry} (hp : d.poll bank k = some p)
    (h : p'.config.target = p.config.target) (other : Bank) (j : PollId) (i : TargetId) :
    pollNames ((d.setPoll bank k (some p')).poll other j) i = pollNames (d.poll other j) i := by
  rw [setPoll_poll]
  split
  · next hj => rw [← hj.1, ← hj.2, hp, pollNames, pollNames, Option.any_some, Option.any_some, h]
  · rfl

theorem takePollResult_pollNames (bank : Bank) (k : PollId) (h : Handle) (r : ConvResult) (d : Device) (other : Bank) (j : PollId)
    (i : TargetId) : pollNames ((takePollResult bank k h r d).poll other j) i = pollNames (d.poll other j) i := by
  unfold takePollResult applySuccess applyFailure
  split
  · rfl
  · next p hp =>
    have write : ∀ {e : Device} {p' : PollEntry}, (∀ x n, e.poll x n = d.poll x n) → p'.config.target = p.config.target →
        pollNames ((e.setPoll bank k (some p')).poll other j) i = pollNames (d.poll other j) i := fun he hc => by
      rw [setPoll_pollNames ((he bank k).trans hp) hc, he]
    split
    · split
      · dsimp only
        split
        · refine write (fun x n => ?_) rfl
          split
          · split <;> rfl
          · rfl
          · rfl
        · refine write (fun x n => ?_) rfl
          split <;> rfl
      · exact write (fun _ _ => rfl) rfl
    · rfl

theorem releaseTarget_poll (a : Target) (d : Device) (bank : Bank) (k : PollId) : (releaseTarget a d).poll bank k = d.poll bank k := by
  cases a with
  | directory j => exact releaseRef_poll j d bank k
  | raw => rfl

theorem finish_pollNames (k : SlotId) (r : ConvResult) (d : Device) (bank : Bank) (j : PollId) (i : TargetId) :
    pollNames ((finish k r d).poll bank j) i = pollNames (d.poll bank j) i := by
  have key : pollNames ((releaseTarget (d.slot k).conv.target (d.updSlot k fun s => { s with
      state := .done
      conv := { s.conv with result := some r, stop := none, assemblyTimer := none, deadlineTimer := none } })).poll bank j) i =
      pollNames (d.poll bank j) i := by
    rw [releaseTarget_poll]
    rfl
  unfold finish
  dsimp only
  split
  · exact key
  · split <;> exact key
  · exact key
  · exact (takePollResult_pollNames ..).trans key

/-- A conversation that enters DONE has ended with its result. -/
theorem finish_endedWith (k : SlotId) (r : ConvResult) (d : Device) : Claims.endedWith (d.slot k) r ((finish k r d).slot k) :=
  ⟨finish_slot_held k r d, finish_slot_freed k r d⟩

/-! ## The conversations on a target -/

/-- The conversation of a slot waits for its start on a target. -/
def Slot.EndsOn (x : Slot) (i : TargetId) : Prop := x.conv.target = .directory i ∧ (x.state = .assembling ∨ x.state = .queued)

/-- The conversation of a slot runs on a target. -/
def Slot.RunsOn (x : Slot) (i : TargetId) : Prop := x.conv.target = .directory i ∧ x.state = .running

theorem Slot.EndsOn.not_runsOn {x : Slot} {i : TargetId} (h : x.EndsOn i) : ¬ x.RunsOn i := fun r => by
  obtain e | e := h.2 <;> exact absurd (e.symm.trans r.2) (by decide)

theorem names_iff {x : Slot} {i : TargetId} : x.names i = true ↔ x.EndsOn i ∨ x.RunsOn i := by
  unfold Slot.names Slot.live Slot.EndsOn Slot.RunsOn
  cases x.state <;> simp

theorem endedWith_not_names {x y : Slot} {r : ConvResult} (h : Claims.endedWith x r y) (i : TargetId) : y.names i = false := by
  by_cases hx : x.conv.origin = .host ∧ x.conv.mode ≠ some .fire
  · rw [h.1 hx.1 hx.2]
    rfl
  · rw [h.2 (by by_cases ho : x.conv.origin = .host <;> simp_all)]
    rfl

/-- What stands in a list is a handle of a QUEUED conversation of that segment. -/
theorem WorkBase.listed (h : WorkBase none none d) {g : SegId} {c : Class} {hd : Handle} (hm : hd ∈ (d.seg g).waiting c) :
    hd = d.handle hd.slot ∧ (d.slot hd.slot).state = .queued ∧ d.home hd.slot = g :=
  h.queued_of_mem (List.mem_append.mpr (by
    cases c
    case urgent => exact Or.inl hm
    case normal => exact Or.inr hm))

/-- Two conversations that run on one target are one: its segment's engine runs them. -/
theorem WorkBase.runsOn_unique (h : WorkBase none none d) {i : TargetId} {k j : SlotId} (hk : (d.slot k).RunsOn i)
    (hj : (d.slot j).RunsOn i) : k = j := by
  have engine : ∀ {k : SlotId}, (d.slot k).RunsOn i → (d.seg (d.entry i).segment).work.runs = some (d.handle k) := fun {k} hk =>
    (h.engine _ (d.handle k)).mpr ⟨by simp, rfl, hk.2, by rw [handle_slot, Device.home, hk.1]; rfl⟩
  exact congrArg Handle.slot (Option.some.inj ((engine hk).symm.trans (engine hj)))

/-! ## The waiting work is ended (R17, step 2) -/

/-- The conversations of the slots in `l` that wait on a target have ended WITHDRAWN and left their queue. -/
structure Emptied (i : TargetId) (l : List SlotId) (d t : Device) : Prop where
  ended : ∀ k ∈ l, (d.slot k).EndsOn i → Claims.endedWith (d.slot k) (.unstarted .withdrawn) (t.slot k)
  others : ∀ k, ¬ (k ∈ l ∧ (d.slot k).EndsOn i) → t.slot k = d.slot k
  waiting : ∀ g c, (t.seg g).waiting c =
    ((d.seg g).waiting c).filter fun h => decide ¬ (h.slot ∈ l ∧ (d.slot h.slot).conv.target = .directory i)
  work : ∀ g, (t.seg g).work = (d.seg g).work
  entry : ∃ n, t.entry i = { d.entry i with refs := n }
  polls : ∀ bank k, pollNames (t.poll bank k) i = true → pollNames (d.poll bank k) i = true

/-- A slot whose conversation does not wait in a queue on the target is in none of the lists. -/
theorem WorkBase.filter_self (h : WorkBase none none d) {i : TargetId} {k : SlotId}
    (hk : ¬ ((d.slot k).state = .queued ∧ (d.slot k).conv.target = .directory i)) (g : SegId) (c : Class) :
    ((d.seg g).waiting c).filter (fun h => decide ¬ (h.slot ∈ [k] ∧ (d.slot h.slot).conv.target = .directory i)) = (d.seg g).waiting c := by
  refine List.filter_eq_self.mpr fun hd hm => decide_eq_true fun ⟨h1, h2⟩ => ?_
  rw [List.mem_singleton.mp h1] at h2
  exact hk ⟨(List.mem_singleton.mp h1) ▸ (h.listed hm).2.1, h2⟩

theorem Emptied.of_none (h : WorkBase none none d) {i : TargetId} {k : SlotId} (hk : ¬ (d.slot k).EndsOn i) : Emptied i [k] d d where
  ended _ hj he := absurd ((List.mem_singleton.mp hj) ▸ he) hk
  others _ _ := rfl
  waiting g c := (h.filter_self (fun e => hk ⟨e.2, Or.inr e.1⟩) g c).symm
  work _ := rfl
  entry := ⟨_, rfl⟩
  polls _ _ := id

/-- A conversation that waits on the target ends, once its handle is out of the lists. -/
theorem finish_emptied {i : TargetId} {k : SlotId} (hk : (d.slot k).EndsOn i)
    (hw : (d.entry i).presence ≠ .withdrawing) (slot : ∀ j, e.slot j = d.slot j) (entry : ∀ j, e.entry j = d.entry j)
    (poll : ∀ bank j, e.poll bank j = d.poll bank j) (work : ∀ g, (e.seg g).work = (d.seg g).work)
    (waiting : ∀ g c, (e.seg g).waiting c =
      ((d.seg g).waiting c).filter fun h => decide ¬ (h.slot ∈ [k] ∧ (d.slot h.slot).conv.target = .directory i)) :
    Emptied i [k] d (finish k (.unstarted .withdrawn) e) where
  ended j hj _ := by
    rw [List.mem_singleton.mp hj, ← slot k]
    exact finish_endedWith k _ e
  others j hj := by
    have hne : j ≠ k := fun x => hj (by rw [x]; exact ⟨List.mem_singleton_self k, hk⟩)
    rw [(finish_oneSlot k _ e).other hne, slot]
  waiting g c := by rw [finish_seg, waiting]
  work g := by rw [finish_seg, work]
  entry := ⟨(d.entry i).refs - 1, by
    rw [finish_entry, slot, if_pos hk.1, entry, Entry.released, if_neg fun x => hw x.1]⟩
  polls bank j h := by rwa [finish_pollNames, poll] at h

/-- A handle out of its queue is out of all lists. -/
theorem WorkBase.leaveQueue_waiting (h : WorkBase none none d) {i : TargetId} {k : SlotId} (hk : (d.slot k).conv.target = .directory i)
    (g : SegId) (c : Class) : ((Machine.leaveQueue k d).seg g).waiting c =
      ((d.seg g).waiting c).filter fun h => decide ¬ (h.slot ∈ [k] ∧ (d.slot h.slot).conv.target = .directory i) := by
  have hout : ∀ hd ∈ (d.seg g).waiting c, (hd.slot ∈ [k] ∧ (d.slot hd.slot).conv.target = .directory i) ↔ hd = d.handle k :=
    fun hd hm => ⟨fun x => by rw [(h.listed hm).1, List.mem_singleton.mp x.1], fun x => by
      rw [x, handle_slot]
      exact ⟨List.mem_singleton_self k, hk⟩⟩
  unfold Machine.leaveQueue
  rw [updSeg_seg]
  split
  · have hnodup : ((d.seg g).waiting c).Nodup := List.nodup_iff_count_le_one.mpr (h.count_le_one g c)
    rw [dequeue_waiting, hnodup.erase_eq_filter]
    refine List.filter_congr fun hd hm => ?_
    rw [Bool.eq_iff_iff, decide_eq_true_iff, hout hd hm]
    simp
  · next hg =>
    refine (List.filter_eq_self.mpr fun hd hm => ?_).symm
    rw [decide_eq_true_iff]
    intro x
    have hhome := (h.listed hm).2.2
    rw [(hout hd hm).mp x, handle_slot] at hhome
    exact hg hhome

theorem withdrawWaiting_emptied (h : WorkBase none none d) {i : TargetId} (hw : (d.entry i).presence ≠ .withdrawing) (k : SlotId) :
    Emptied i [k] d (withdrawWaiting i d k) := by
  unfold withdrawWaiting
  split
  · next hk =>
    have none_ends : (d.slot k).state ≠ .assembling → (d.slot k).state ≠ .queued → Emptied i [k] d d := fun ha hq =>
      .of_none h fun x => x.2.elim ha hq
    split <;> rename_i hs
    · exact finish_emptied ⟨hk, Or.inl hs⟩ hw (fun _ => rfl) (fun _ => rfl) (fun _ _ => rfl) (fun _ => rfl) fun g c =>
        (h.filter_self (fun x => by simp [hs] at x) g c).symm
    · refine finish_emptied (e := leaveQueue k d) ⟨hk, Or.inr hs⟩ hw (fun _ => rfl) (fun _ => rfl) (fun _ _ => rfl) (fun g => ?_)
        (h.leaveQueue_waiting hk)
      unfold leaveQueue
      rw [updSeg_seg]
      split <;> rfl
    · exact none_ends (by simp [hs]) (by simp [hs])
    · exact none_ends (by simp [hs]) (by simp [hs])
    · exact none_ends (by simp [hs]) (by simp [hs])
  · next hk => exact .of_none h fun x => hk x.1

theorem Emptied.cons {i : TargetId} {k : SlotId} {l : List SlotId} (hk : k ∉ l) (h1 : Emptied i [k] d e) (h2 : Emptied i l e t) :
    Emptied i (k :: l) d t := by
  have hslot : ∀ j ∈ l, e.slot j = d.slot j := fun j hj => h1.others j fun x => hk ((List.mem_singleton.mp x.1) ▸ hj)
  refine ⟨fun j hj he => ?_, fun j hj => ?_, fun g c => ?_, fun g => (h2.work g).trans (h1.work g), ?_,
    fun bank j x => h1.polls bank j (h2.polls bank j x)⟩
  · obtain rfl | hj := List.mem_cons.mp hj
    · rw [h2.others j fun x => hk x.1]
      exact h1.ended j (List.mem_singleton_self j) he
    · rw [← hslot j hj]
      exact h2.ended j hj (by rwa [hslot j hj])
  · have he : e.slot j = d.slot j := h1.others j fun x => hj ⟨List.mem_cons.mpr (Or.inl (List.mem_singleton.mp x.1)), x.2⟩
    rw [h2.others j fun x => hj ⟨List.mem_cons_of_mem _ x.1, he ▸ x.2⟩, he]
  · rw [h2.waiting, h1.waiting, List.filter_filter]
    refine List.filter_congr fun hd _ => ?_
    by_cases hl : hd.slot ∈ l
    · have hne : hd.slot ≠ k := fun x => hk (x ▸ hl)
      simp [hl, hslot _ hl, hne]
    · simp [hl]
  · obtain ⟨n, hn⟩ := h1.entry
    obtain ⟨m, hm⟩ := h2.entry
    exact ⟨m, by rw [hm, hn]⟩

theorem withdrawWaiting_foldl (h : WorkLaw d) {i : TargetId} (hw : (d.entry i).presence ≠ .withdrawing) {l : List SlotId} (hl : l.Nodup) :
    Emptied i l d (l.foldl (withdrawWaiting i) d) := by
  induction l generalizing d with
  | nil => exact ⟨fun _ hj => absurd hj List.not_mem_nil, fun _ _ => rfl, fun _ _ => by simp, fun _ => rfl, ⟨_, rfl⟩, fun _ _ => id⟩
  | cons k l ih =>
    obtain ⟨hk, hl⟩ := List.nodup_cons.mp hl
    have first := withdrawWaiting_emptied h.base hw k
    obtain ⟨n, hn⟩ := first.entry
    exact first.cons hk (ih (h.withdrawWaiting i k) (by rw [hn]; exact hw) hl)

/-! ## The shadow entries are cleared (R17, step 1) -/

/-- A shadow entry that names the target is cleared. -/
def clearNaming (i : TargetId) (d : Device) (k : PollId) : Device :=
  if pollNames (d.poll d.schedule.shadow k) i then clearShadowEntry k d else d

/-- No shadow entry with an index in `l` names the target any more; the slots and the segments are as they were. -/
structure Unnamed (i : TargetId) (l : List PollId) (d t : Device) : Prop where
  kept : SlotsKept d t
  cleared : ∀ k ∈ l, pollNames (t.poll d.schedule.shadow k) i = false
  polls : ∀ bank k, pollNames (t.poll bank k) i = true → pollNames (d.poll bank k) i = true
  entry : ∃ n, t.entry i = { d.entry i with refs := n }

theorem clearNaming_unnamed {i : TargetId} (hw : (d.entry i).presence ≠ .withdrawing) (k : PollId) : Unnamed i [k] d (clearNaming i d k) := by
  unfold clearNaming
  split
  · next hk =>
    refine ⟨clearShadowEntry_slotsKept k d, fun j hj => ?_, fun bank j hj => ?_, ⟨(d.entry i).refs - 1, ?_⟩⟩
    · rw [List.mem_singleton.mp hj, clearShadowEntry_poll, if_pos ⟨rfl, rfl⟩]
      rfl
    · rw [clearShadowEntry_poll] at hj
      split at hj
      · exact absurd hj (by simp [pollNames])
      · exact hj
    · rw [clearShadowEntry_entry, hk]
      show (d.entry i).released = _
      rw [Entry.released, if_neg fun x => hw x.1]
  · next hk =>
    exact ⟨.refl d, fun j hj => by rw [List.mem_singleton.mp hj]; exact Bool.not_eq_true _ ▸ hk, fun _ _ => id, ⟨_, rfl⟩⟩

theorem clearNaming_foldl {i : TargetId} (hw : (d.entry i).presence ≠ .withdrawing) (l : List PollId) :
    Unnamed i l d (l.foldl (clearNaming i) d) := by
  induction l generalizing d with
  | nil => exact ⟨.refl d, fun _ hj => absurd hj List.not_mem_nil, fun _ _ => id, ⟨_, rfl⟩⟩
  | cons k l ih =>
    have first := clearNaming_unnamed hw k
    obtain ⟨n, hn⟩ := first.entry
    have rest := ih (d := clearNaming i d k) (by rw [hn]; exact hw)
    refine ⟨first.kept.trans rest.kept, fun j hj => ?_, fun bank j x => first.polls bank j (rest.polls bank j x), ?_⟩
    · have hshadow := first.kept.shadow
      obtain rfl | hj := List.mem_cons.mp hj
      · rw [← Bool.not_eq_true]
        exact fun x => absurd (rest.polls _ _ x) (by simp [first.cleared j (List.mem_singleton_self j)])
      · rw [← hshadow]
        exact rest.cleared j hj
    · obtain ⟨m, hm⟩ := rest.entry
      exact ⟨m, by rw [List.foldl_cons, hm, hn]⟩

/-! ## The device once the waiting work on a target is cleared -/

/-- The device after the first two steps of the forced withdrawal (R17). -/
def emptied (i : TargetId) (d : Device) : Device :=
  (List.finRange 32).foldl (withdrawWaiting i) ((List.finRange 48).foldl (clearNaming i) d)

/-- What is left of a target that no active poll entry names: the conversations that run on it are its only references. -/
theorem emptied_spec (h : WorkLaw d) {i : TargetId} (hw : (d.entry i).presence ≠ .withdrawing)
    (hactive : ∀ k, pollNames (d.poll d.schedule.active k) i = false) :
    WorkLaw (emptied i d) ∧ Emptied i (List.finRange 32) d (emptied i d) ∧ (∀ bank k, pollNames ((emptied i d).poll bank k) i = false) := by
  have first := clearNaming_foldl hw (List.finRange 48)
  generalize hd1 : (List.finRange 48).foldl (clearNaming i) d = d1 at first
  have h1 : WorkLaw d1 := hd1 ▸ foldl_keeps (clearNaming i) (fun t k ht => by
    unfold clearNaming
    split
    · exact ht.clearShadowEntry k
    · exact ht) _ h
  obtain ⟨n, hn⟩ := first.entry
  have second := withdrawWaiting_foldl h1 (i := i) (by rw [hn]; exact hw) (List.nodup_finRange 32)
  have heq : emptied i d = (List.finRange 32).foldl (withdrawWaiting i) d1 := by rw [emptied, hd1]
  rw [heq]
  obtain ⟨m, hm⟩ := second.entry
  have hslot := first.kept.slot
  refine ⟨foldl_keeps _ (fun t k ht => ht.withdrawWaiting i k) _ h1, ⟨fun k hk => ?_, fun k => ?_, fun g c => ?_, fun g => ?_,
    ⟨m, by rw [hm, hn]⟩, fun bank k x => first.polls bank k (second.polls bank k x)⟩, fun bank k => ?_⟩
  · simpa only [hslot] using second.ended k hk
  · simpa only [hslot] using second.others k
  · simpa only [hslot, first.kept.seg] using second.waiting g c
  · rw [second.work, first.kept.seg]
  · rw [← Bool.not_eq_true]
    intro x
    have y := second.polls bank k x
    by_cases hb : bank = d.schedule.active
    · exact absurd (first.polls bank k y) (by rw [hb, hactive]; decide)
    · have hb : bank = d.schedule.shadow := by
        unfold Schedule.shadow
        revert hb
        cases bank <;> cases d.schedule.active <;> decide
      exact absurd y (by rw [hb, first.cleared k (List.mem_finRange k)]; decide)

/-- A conversation still refers to the target exactly if it runs on it. -/
theorem Emptied.names {i : TargetId} (h : Emptied i (List.finRange 32) d t) (k : SlotId) :
    (t.slot k).names i = true ↔ (d.slot k).RunsOn i := by
  by_cases he : (d.slot k).EndsOn i
  · rw [endedWith_not_names (h.ended k (List.mem_finRange k) he) i]
    exact ⟨fun x => absurd x (by decide), fun x => absurd x he.not_runsOn⟩
  · rw [h.others k fun x => he x.2, names_iff]
    exact ⟨fun x => x.resolve_left he, Or.inr⟩

theorem Emptied.runsOn {i : TargetId} (h : Emptied i (List.finRange 32) d t) (k : SlotId) : (t.slot k).RunsOn i ↔ (d.slot k).RunsOn i := by
  rw [← h.names k, names_iff]
  refine ⟨Or.inr, fun x => x.resolve_left fun he => ?_⟩
  have hd : (d.slot k).RunsOn i := (h.names k).mp (names_iff.mpr (Or.inl he))
  rw [h.others k fun y => y.2.not_runsOn hd] at he
  exact he.not_runsOn hd

theorem filter_finRange_eq_nil {n : Nat} {p : Fin n → Bool} (h : ∀ j, p j ≠ true) : (List.finRange n).filter p = [] :=
  List.filter_eq_nil_iff.mpr fun j _ => h j

theorem filter_finRange_eq_singleton {n : Nat} {p : Fin n → Bool} {k : Fin n} (h : ∀ j, p j = true ↔ j = k) :
    (List.finRange n).filter p = [k] := by
  have hp : p = fun j => j == k := funext fun j => by rw [Bool.eq_iff_iff, h, beq_iff_eq]
  rw [hp, List.filter_beq, List.count_finRange]
  rfl

/-- The references that are left are those of the conversations that run on the target. -/
theorem emptied_refs (h : WorkLaw d) {i : TargetId} (hw : (d.entry i).presence ≠ .withdrawing)
    (hactive : ∀ k, pollNames (d.poll d.schedule.active k) i = false) :
    ((emptied i d).entry i).refs =
      (List.finRange 32).countP fun k => decide ((d.slot k).conv.target = .directory i ∧ (d.slot k).state = .running) := by
  obtain ⟨law, spec, polls⟩ := emptied_spec h hw hactive
  rw [law.counted, references_eq]
  have none_names : ∀ bank, (List.finRange 48).countP (fun k => pollNames ((emptied i d).poll bank k) i) = 0 := fun bank =>
    List.countP_eq_zero.mpr fun k _ => by simp [polls]
  rw [none_names, none_names, Nat.add_zero]
  refine List.countP_congr fun k _ => ?_
  rw [spec.names, decide_eq_true_iff]
  rfl

/-- What holds of the device after the withdrawal whatever becomes of the conversation that runs on the target. -/
structure ClearedOf (i : TargetId) (d t : Device) : Prop where
  unnamed : ∀ bank, ¬ ∃ k p, t.poll bank k = some p ∧ p.config.target = i
  ended : ∀ k, (d.slot k).EndsOn i → Claims.endedWith (d.slot k) (.unstarted .withdrawn) (t.slot k)
  kept : ∀ k, ¬ (d.slot k).EndsOn i → ¬ (d.slot k).RunsOn i → t.slot k = d.slot k
  waiting : ∀ g c, (t.seg g).waiting c = ((d.seg g).waiting c).filter fun h => decide ((d.slot h.slot).conv.target ≠ .directory i)

theorem clearedOf_emptied (h : WorkLaw d) {i : TargetId} (hw : (d.entry i).presence ≠ .withdrawing)
    (hactive : ∀ k, pollNames (d.poll d.schedule.active k) i = false)
    (slot : ∀ k, ¬ (d.slot k).RunsOn i → t.slot k = (emptied i d).slot k)
    (waiting : ∀ g c, (t.seg g).waiting c = ((emptied i d).seg g).waiting c)
    (poll : ∀ bank k, pollNames (t.poll bank k) i = pollNames ((emptied i d).poll bank k) i) : ClearedOf i d t := by
  obtain ⟨-, spec, polls⟩ := emptied_spec h hw hactive
  refine ⟨fun bank ⟨k, p, hp⟩ => ?_, fun k hk => ?_, fun k he hr => ?_, fun g c => ?_⟩
  · have hnames := pollNames_iff.mpr ⟨p, hp⟩
    rw [poll, polls] at hnames
    exact absurd hnames (by decide)
  · rw [slot k hk.not_runsOn]
    exact spec.ended k (List.mem_finRange k) hk
  · rw [slot k hr]
    exact spec.others k fun x => he x.2
  · rw [waiting, spec.waiting]
    exact List.filter_congr fun hd _ => by simp

/-! ## The forced withdrawal -/

theorem bankNames_iff {bank : Bank} {i : TargetId} :
    bankNames (d.schedule.bank bank) i = true ↔ ∃ k p, d.poll bank k = some p ∧ p.config.target = i := by
  simp only [← pollNames_iff]
  simp only [bankNames, List.any_eq_true, List.mem_finRange, true_and]
  rfl

theorem setStop_entry (k : SlotId) (c : StopCause) (d : Device) (j : TargetId) : (setStop k c d).entry j = d.entry j := rfl

/-- The device once the conversation that runs on the target has its stop request and the entry is WITHDRAWING (R17, steps 3 and 4). -/
def stoppedOn (i : TargetId) (k : SlotId) (d : Device) : Device :=
  (setStop k .withdrawn (emptied i d)).updEntry i fun e => { e with presence := .withdrawing }

section
variable {i : TargetId} (h : WorkLaw d) (hw : (d.entry i).presence ≠ .withdrawing)
  (hactive : ¬ ∃ k p, d.poll d.schedule.active k = some p ∧ p.config.target = i)

theorem no_pollNames (hactive : ¬ ∃ k p, d.poll d.schedule.active k = some p ∧ p.config.target = i) (k : PollId) :
    pollNames (d.poll d.schedule.active k) i = false := by
  rw [← Bool.not_eq_true, pollNames_iff]
  exact fun ⟨p, hp⟩ => hactive ⟨k, p, hp⟩

theorem withdrawForced_named (hn : ∃ k p, d.poll d.schedule.active k = some p ∧ p.config.target = i) :
    withdrawForced i d = (refuse .inPoll, d) := if_pos (bankNames_iff.mpr hn)

include hactive in
theorem withdrawForced_pending (hp : d.schedule.swapPending = true)
    (hn : ∃ k p, d.poll d.schedule.shadow k = some p ∧ p.config.target = i) : withdrawForced i d = (refuse .swapPending, d) := by
  unfold withdrawForced
  rw [if_neg fun e => hactive (bankNames_iff.mp e), if_pos (by rw [hp, bankNames_iff.mpr hn]; rfl)]

variable (hpend : ¬ (d.schedule.swapPending = true ∧ ∃ k p, d.poll d.schedule.shadow k = some p ∧ p.config.target = i))

include hactive hpend in
/-- The four steps, once both banks allow them. -/
theorem withdrawForced_allowed {running : List SlotId} {t : Device} (hr : runningOn i (emptied i d) = running)
    (ht : running.foldl (fun d k => setStop k .withdrawn d) (emptied i d) = t) : withdrawForced i d =
      if (t.entry i).refs = 0 then (⟨.ok, [Presence.vacant.code]⟩, t.updEntry i fun _ => .vacant)
      else (⟨.ok, [Presence.withdrawing.code]⟩,
        running.foldl (fun d k => takeStopInWait k d) (t.updEntry i fun e => { e with presence := .withdrawing })) := by
  subst hr ht
  unfold withdrawForced
  rw [if_neg fun e => hactive (bankNames_iff.mp e), if_neg fun e => ?_]
  · rfl
  · rw [Bool.and_eq_true] at e
    exact hpend ⟨e.1, bankNames_iff.mp e.2⟩

include h hw hactive hpend in
theorem withdrawForced_of_none (hno : ∀ k, ¬ (d.slot k).RunsOn i) :
    withdrawForced i d = (⟨.ok, [Presence.vacant.code]⟩, (emptied i d).updEntry i fun _ => .vacant) := by
  have hzero : ((emptied i d).entry i).refs = 0 := by
    rw [emptied_refs h hw (no_pollNames hactive)]
    exact List.countP_eq_zero.mpr fun k _ => by simpa using fun x y => hno k ⟨x, y⟩
  have spec := (emptied_spec h hw (no_pollNames hactive)).2.1
  have hrunning : runningOn i (emptied i d) = [] := filter_finRange_eq_nil fun k x => by
    rw [decide_eq_true_iff] at x
    exact hno k ((spec.runsOn k).mp ⟨x.2, x.1⟩)
  rw [withdrawForced_allowed hactive hpend (t := emptied i d) hrunning List.foldl_nil, if_pos hzero]

include h in
theorem runsOn_iff {k : SlotId} (hk : (d.slot k).RunsOn i) (j : SlotId) : (d.slot j).RunsOn i ↔ j = k :=
  ⟨fun hj => h.base.runsOn_unique hj hk, fun e => e ▸ hk⟩

include h hw hactive in
/-- The conversation that runs on the target holds the one reference that is left. -/
theorem emptied_refs_one {k : SlotId} (hk : (d.slot k).RunsOn i) : ((emptied i d).entry i).refs = 1 := by
  rw [emptied_refs h hw (no_pollNames hactive), List.countP_eq_length_filter, filter_finRange_eq_singleton (k := k) fun j => ?_]
  · rfl
  · rw [decide_eq_true_iff]
    exact runsOn_iff h hk j

include h hw hactive hpend in
theorem withdrawForced_of_runs {k : SlotId} (hk : (d.slot k).RunsOn i) :
    withdrawForced i d = (⟨.ok, [Presence.withdrawing.code]⟩, takeStopInWait k (stoppedOn i k d)) := by
  have hone := emptied_refs_one h hw hactive hk
  have spec := (emptied_spec h hw (no_pollNames hactive)).2.1
  have hrunning : runningOn i (emptied i d) = [k] := filter_finRange_eq_singleton fun j => by
    rw [decide_eq_true_iff, ← runsOn_iff h hk j, ← spec.runsOn j]
    exact and_comm
  have hrefs : ((setStop k .withdrawn (emptied i d)).entry i).refs ≠ 0 := fun e => by
    rw [setStop_entry, hone] at e
    exact absurd e (by decide)
  rw [withdrawForced_allowed hactive hpend (t := setStop k .withdrawn (emptied i d)) hrunning (by rw [List.foldl_cons, List.foldl_nil]),
    if_neg hrefs, List.foldl_cons, List.foldl_nil, stoppedOn]

/-! ### A target that nothing refers to -/

include h in
theorem emptied_of_unreferenced (h0 : (d.entry i).refs = 0) : emptied i d = d := by
  have hrefs : references d i = 0 := (h.counted i).symm.trans h0
  have hclear : (List.finRange 48).foldl (clearNaming i) d = d := List.foldl_fixed' (fun k => if_neg fun x => by
    obtain ⟨p, hp, hi⟩ := pollNames_iff.mp x
    have := references_pos_of_poll hp
    rw [hi] at this
    omega) _
  rw [emptied, hclear]
  refine List.foldl_fixed' (fun k => ?_) _
  unfold withdrawWaiting
  split
  · next ht =>
    have dead : (d.slot k).live ≠ true := fun x => by
      have := references_pos_of_live x ht
      omega
    split <;> rename_i hs
    · exact absurd (live_of_assembling hs) dead
    · exact absurd (live_of_queued hs) dead
    · rfl
    · rfl
    · rfl
  · rfl

/-! ### The conversation that runs on the target -/

include h hw hactive in
theorem emptied_slot_of_runs {k : SlotId} (hk : (d.slot k).RunsOn i) : (emptied i d).slot k = d.slot k :=
  (emptied_spec h hw (no_pollNames hactive)).2.1.others k fun x => x.2.not_runsOn hk

include h hw hactive in
theorem stoppedOn_entry {k : SlotId} (hk : (d.slot k).RunsOn i) :
    (stoppedOn i k d).entry i = { d.entry i with presence := .withdrawing, refs := 1 } := by
  have hone := emptied_refs_one h hw hactive hk
  obtain ⟨n, hn⟩ := (emptied_spec h hw (no_pollNames hactive)).2.1.entry
  rw [hn] at hone
  have hone : n = 1 := hone
  rw [stoppedOn, updEntry_entry_same, setStop_entry, hn, hone]

theorem setStop_slot (k : SlotId) (c : StopCause) (d : Device) (j : SlotId) : (setStop k c d).slot j =
    if k = j then { d.slot j with conv := { (d.slot j).conv with stop := (d.slot j).conv.stop.or (some c) } } else d.slot j :=
  updSlot_slot ..

include h hw hactive in
theorem stoppedOn_slot_same {k : SlotId} (hk : (d.slot k).RunsOn i) : (stoppedOn i k d).slot k =
    { d.slot k with conv := { (d.slot k).conv with stop := (d.slot k).conv.stop.or (some .withdrawn) } } := by
  rw [stoppedOn, updEntry_slot_frame, setStop_slot, if_pos rfl, emptied_slot_of_runs h hw hactive hk]

theorem stoppedOn_slot_other {k j : SlotId} (hj : k ≠ j) : (stoppedOn i k d).slot j = (emptied i d).slot j := by
  rw [stoppedOn, updEntry_slot_frame, setStop_slot, if_neg hj]

theorem setStop_seg (k : SlotId) (c : StopCause) (d : Device) (g : SegId) : (setStop k c d).seg g = d.seg g := rfl
theorem setStop_poll (k : SlotId) (c : StopCause) (d : Device) (bank : Bank) (j : PollId) : (setStop k c d).poll bank j = d.poll bank j := rfl
theorem updEntry_poll (f : Entry → Entry) (d : Device) (bank : Bank) (j : PollId) : (d.updEntry i f).poll bank j = d.poll bank j := rfl

theorem stoppedOn_seg (k : SlotId) (g : SegId) : (stoppedOn i k d).seg g = (emptied i d).seg g := by
  rw [stoppedOn, updEntry_seg_frame, setStop_seg]

theorem stoppedOn_poll (k : SlotId) (bank : Bank) (j : PollId) : (stoppedOn i k d).poll bank j = (emptied i d).poll bank j := by
  rw [stoppedOn, updEntry_poll, setStop_poll]

theorem takeStopInWait_eq {k : SlotId} {hd : Handle} {ctx : Context} {c : StopCause} (ht : (t.slot k).conv.target = .directory i)
    (hwork : (t.seg (t.entry i).segment).work = .conversation hd ctx) (hs : (t.slot k).conv.stop = some c) :
    takeStopInWait k t = if hd.slot = k ∧ ctx.phase.waits then
      makeSelection (t.entry i).segment (endStopped (t.entry i).segment hd ctx c t) else t := by
  unfold takeStopInWait
  rw [ht, hs]
  dsimp only [targetSegment]
  rw [hwork]

include h hw hactive in
/-- What the engine makes of the stop request: it ends the conversation if it waits, and goes on if it does not (R101). -/
theorem takeStop_stoppedOn {k : SlotId} (hk : (d.slot k).RunsOn i) {hd : Handle} {ctx : Context}
    (hwork : (d.seg (d.entry i).segment).work = .conversation hd ctx) : takeStopInWait k (stoppedOn i k d) =
      if hd.slot = k ∧ ctx.phase.waits then makeSelection (d.entry i).segment
        (endStopped (d.entry i).segment hd ctx ((d.slot k).conv.stop.getD .withdrawn) (stoppedOn i k d))
      else stoppedOn i k d := by
  have hslot := stoppedOn_slot_same h hw hactive hk
  have hsegment : ((stoppedOn i k d).entry i).segment = (d.entry i).segment := by rw [stoppedOn_entry h hw hactive hk]
  have hstop : ((stoppedOn i k d).slot k).conv.stop = some ((d.slot k).conv.stop.getD .withdrawn) := by
    rw [hslot]
    cases (d.slot k).conv.stop <;> rfl
  have key := takeStopInWait_eq (t := stoppedOn i k d) (k := k) (i := i) (hd := hd) (ctx := ctx) (by rw [hslot]; exact hk.1)
    (by rw [hsegment, stoppedOn_seg, (emptied_spec h hw (no_pollNames hactive)).2.1.work, hwork]) hstop
  rwa [hsegment] at key

include h in
theorem work_of_runs {k : SlotId} (hk : (d.slot k).RunsOn i) : ∃ ctx, (d.seg (d.entry i).segment).work = .conversation (d.handle k) ctx := by
  refine runs_eq_some.mp ((h.base.engine _ (d.handle k)).mpr ⟨by simp, rfl, hk.2, ?_⟩)
  rw [handle_slot, Device.home, hk.1]
  rfl

theorem waiting_iff {k : SlotId} {ctx : Context} (hk : (d.slot k).conv.target = .directory i) : Claims.waiting d k ctx ↔
    ∃ hd, (d.seg (d.entry i).segment).work = .conversation hd ctx ∧ hd.slot = k ∧ ctx.phase.waits = true := by
  unfold Claims.waiting
  rw [hk]
  rfl

/-! ### The device afterwards -/

include h hw hactive in
theorem clearedOf_vacated : ClearedOf i d ((emptied i d).updEntry i fun _ => .vacant) :=
  clearedOf_emptied h hw (no_pollNames hactive) (fun _ _ => updEntry_slot_frame) (fun _ _ => by rw [updEntry_seg_frame])
    fun _ _ => by rw [updEntry_poll]

include h hw hactive in
theorem clearedOf_stopped {k : SlotId} (hk : (d.slot k).RunsOn i) : ClearedOf i d (stoppedOn i k d) :=
  clearedOf_emptied h hw (no_pollNames hactive) (fun j hj => stoppedOn_slot_other fun e => hj (e ▸ hk)) (fun g c => by rw [stoppedOn_seg])
    fun bank j => by rw [stoppedOn_poll]

theorem endStopped_slot_other (g : SegId) (hd : Handle) (ctx : Context) (c : StopCause) (d : Device) {j : SlotId} (hj : hd.slot ≠ j) :
    (endStopped g hd ctx c d).slot j = d.slot j := (finish_oneSlot hd.slot _ d).other (Ne.symm hj)

theorem endStopped_endedWith (g : SegId) (hd : Handle) (ctx : Context) (c : StopCause) (d : Device) :
    Claims.endedWith (d.slot hd.slot) ⟨c.outcome, ctx.completed, some ctx.completed, ctx.readData, ctx.lastValue⟩
      ((endStopped g hd ctx c d).slot hd.slot) := finish_endedWith ..

theorem endStopped_pollNames (g : SegId) (hd : Handle) (ctx : Context) (c : StopCause) (d : Device) (bank : Bank) (j : PollId) (i : TargetId) :
    pollNames ((endStopped g hd ctx c d).poll bank j) i = pollNames (d.poll bank j) i := finish_pollNames ..

theorem endStopped_entry (g : SegId) (hd : Handle) (ctx : Context) (c : StopCause) (d : Device) (i : TargetId) :
    (endStopped g hd ctx c d).entry i = if (d.slot hd.slot).conv.target = .directory i then (d.entry i).released else d.entry i :=
  finish_entry ..

theorem endStopped_seg_same (g : SegId) (hd : Handle) (ctx : Context) (c : StopCause) (d : Device) :
    ((endStopped g hd ctx c d).seg g).state = .idle ∧ ((endStopped g hd ctx c d).seg g).work = .nothing := by
  unfold endStopped endConversation
  rw [updSeg_seg_same]
  exact ⟨rfl, rfl⟩

theorem endConversation_waiting (g : SegId) (hd : Handle) (ctx : Context) (o : ConvOutcome) (n : Option Nat) (d : Device) (j : SegId)
    (c : Class) : ((endConversation g hd ctx o n d).seg j).waiting c = (d.seg j).waiting c := by
  unfold endConversation
  rw [updSeg_seg, finish_seg]
  split
  · cases c <;> rfl
  · rfl

include h hw hactive in
theorem clearedOf_ended {k : SlotId} (hk : (d.slot k).RunsOn i) (g : SegId) {hd : Handle} (hslot : hd.slot = k) (ctx : Context)
    (c : StopCause) : ClearedOf i d (endStopped g hd ctx c (stoppedOn i k d)) := by
  subst hslot
  refine clearedOf_emptied h hw (no_pollNames hactive) (fun j hj => ?_) (fun j cls => ?_) fun bank j => ?_
  · have hne : hd.slot ≠ j := fun e => hj (e ▸ hk)
    rw [endStopped_slot_other g hd ctx c _ hne, stoppedOn_slot_other hne]
  · rw [endStopped, endConversation_waiting, stoppedOn_seg]
  · rw [endStopped_pollNames, stoppedOn_poll]

end

theorem WorkLaw.found (h : WorkLaw d) (o : Outbound) : WorkLaw (found o d) := by
  unfold Machine.found countAccepted atDone
  exact workLaw_stepKept.port _ _ (workLaw_stepKept.port _ _ h)

/-- Settles O25: by what runs on the target once its waiting work is cleared, nothing or the one conversation of its segment's engine. -/
theorem forcedWithdrawalClearsTheWaitingWork : Obligations.ForcedWithdrawalClearsTheWaitingWork := by
  refine ⟨fun s tag i o ha hv hw => ?_, fun d i => ?_⟩
  · intro c e active names on runs ends
    have run : ∀ (r : Reply) {t : Device}, withdrawForced i (found o s.dev) = (r, t) →
        exec c s = replyTo s 0x92#8 tag (r.status.code :: r.fields) t := fun r t h => by
      refine request_reply .withdrawTarget _ r rfl rfl rfl (by simp) ha rfl ?_
      show requestWithdrawTarget [byte i.val, 1#8] (found o s.dev) = (r, t)
      rw [requestWithdrawTarget_inRange i (by decide), found_entry, if_neg hv, if_neg hw, if_neg (by decide), h]
    refine ⟨fun hn => run (refuse .inPoll) (withdrawForced_named hn),
      fun hn hp hs => run (refuse .swapPending) (withdrawForced_pending (d := found o s.dev) hn hp hs),
      fun hn hs => ⟨⟨_, run (withdrawForced i (found o s.dev)).1 rfl⟩, fun h => ?_⟩⟩
    have h := h.found o
    have noRun : (∀ k, ¬ runs k) → exec c s = replyTo s 0x92#8 tag [0x00#8, 0#8] ((emptied i (found o s.dev)).updEntry i fun _ => .vacant) :=
      fun hno => run ⟨.ok, [Presence.vacant.code]⟩ (withdrawForced_of_none (d := found o s.dev) h hw hn hs hno)
    refine ⟨fun h0 => ?_, ?_⟩
    · have hno : ∀ k, ¬ runs k := fun k hk => by
        have := references_pos_of_live (d := found o s.dev) (live_of_running hk.2) hk.1
        rw [← h.counted, found_entry, h0] at this
        omega
      rw [noRun hno, emptied_of_unreferenced (d := found o s.dev) h h0]
    by_cases hany : ∃ k, runs k
    · obtain ⟨k, hk⟩ := hany
      have honly : ∀ j, runs j → j = k := fun j hj => h.base.runsOn_unique (d := found o s.dev) hj hk
      obtain ⟨ctx, hwork⟩ := work_of_runs (d := found o s.dev) h hk
      have hstop := takeStop_stoppedOn (d := found o s.dev) h hw hn hk hwork
      have hrun := withdrawForced_of_runs (d := found o s.dev) h hw hn hs hk
      rw [hstop] at hrun
      by_cases hwaits : ctx.phase.waits = true
      · rw [if_pos ⟨rfl, hwaits⟩] at hrun
        obtain ⟨unnamed, ended, kept, waiting⟩ := clearedOf_ended (d := found o s.dev) h hw hn hk e.segment (handle_slot _ k) ctx
          ((s.dev.slot k).conv.stop.getD .withdrawn)
        refine ⟨_, unnamed _, ended, kept, waiting, fun hno => absurd hk (hno k), fun j hj hnot => ?_, fun j ctx' hj hj' => ?_⟩
        · exact absurd ⟨ctx, (waiting_iff hj.1).mpr ⟨_, hwork, (honly j hj).symm, hwaits⟩⟩ hnot
        · obtain rfl := honly j hj
          obtain ⟨hd, hwork', -, -⟩ := (waiting_iff (d := s.dev) hk.1).mp hj'
          obtain ⟨rfl, rfl⟩ := Work.conversation.inj (hwork.symm.trans hwork')
          obtain ⟨hidle, hnothing⟩ := endStopped_seg_same e.segment ((found o s.dev).handle j) ctx
            ((s.dev.slot j).conv.stop.getD .withdrawn) (stoppedOn i j (found o s.dev))
          refine ⟨run ⟨.ok, [Presence.withdrawing.code]⟩ hrun, ?_, hidle, hnothing, ?_⟩
          · have hon : ((stoppedOn i j (found o s.dev)).slot j).conv.target = .directory i := by
              rw [stoppedOn_slot_same (d := found o s.dev) h hw hn hk]
              exact hk.1
            rw [endStopped_entry, handle_slot, if_pos hon, stoppedOn_entry (d := found o s.dev) h hw hn hk]
            exact if_pos ⟨rfl, Nat.le_refl 1⟩
          · have key := endStopped_endedWith e.segment ((found o s.dev).handle j) ctx ((s.dev.slot j).conv.stop.getD .withdrawn)
              (stoppedOn i j (found o s.dev))
            rw [handle_slot, stoppedOn_slot_same (d := found o s.dev) h hw hn hk] at key
            exact key
      · rw [if_neg fun x => hwaits x.2] at hrun
        obtain ⟨unnamed, ended, kept, waiting⟩ := clearedOf_stopped (d := found o s.dev) h hw hn hk
        refine ⟨_, unnamed _, ended, kept, waiting, fun hno => absurd hk (hno k), fun j hj hnot => ?_, fun j ctx' hj hj' => ?_⟩
        · obtain rfl := honly j hj
          exact ⟨run ⟨.ok, [Presence.withdrawing.code]⟩ hrun, stoppedOn_entry (d := found o s.dev) h hw hn hk,
            stoppedOn_slot_same (d := found o s.dev) h hw hn hk⟩
        · obtain ⟨hd, hwork', -, hwaits'⟩ := (waiting_iff (d := s.dev) hj.1).mp hj'
          obtain ⟨rfl, rfl⟩ := Work.conversation.inj (hwork.symm.trans hwork')
          exact absurd hwaits' hwaits
    · have hno : ∀ k, ¬ runs k := fun k hk => hany ⟨k, hk⟩
      obtain ⟨unnamed, ended, kept, waiting⟩ := clearedOf_vacated (d := found o s.dev) h hw hn
      exact ⟨(emptied i (found o s.dev)).updEntry i fun _ => .vacant, unnamed _, ended, kept, waiting,
        fun _ => ⟨noRun hno, updEntry_entry_same ..⟩, fun k hk => absurd hk (hno k), fun k _ hk => absurd hk (hno k)⟩
  · refine ⟨fun _ _ _ => ⟨rfl, rfl⟩, rfl, rfl, rfl, fun hk => if_neg fun x => ?_, fun hp hr => if_pos ⟨hp, hr⟩⟩
    obtain hk | hk := hk
    · exact hk x.1
    · exact absurd x.2 (by omega)

end Sys2Proof.Machine
end

section
/-! PROOFS. Step records as bytes (R25, R178, R179): a run of bytes is cut into records in one way, and a record holds one step at most. -/

namespace Sys2Proof.Machine

/-! ## Cutting bytes into records -/

/-- The bytes of a record. -/
def RawStep.bytes (r : RawStep) : List Byte := recordBytes r.kind r.flags r.fields

/-- A record's length byte can say how many field bytes follow. -/
def RawStep.Fits (r : RawStep) : Prop := r.fields.length < 256

theorem within_iff {lo hi n : Nat} : within lo hi n = true ↔ lo ≤ n ∧ n ≤ hi := by simp [within]

theorem byte_of_toNat (b : Byte) : byte b.toNat = b := BitVec.eq_of_toNat_eq (by simp [byte])

/-- A number in range comes back from its byte. -/
theorem byte_toNat_of_within {lo hi n : Nat} (h : within lo hi n = true) (hb : hi < 256) : (byte n).toNat = n :=
  byte_toNat (Nat.lt_of_le_of_lt (within_iff.mp h).2 hb)

theorem splitRecords_record (fuel : Nat) {r : RawStep} (hr : r.Fits) (rest : List Byte) :
    splitRecords (fuel + 1) (r.bytes ++ rest) = (splitRecords fuel rest).map (r :: ·) := by
  have hn : (byte r.fields.length).toNat = r.fields.length := byte_toNat hr
  show splitRecords (fuel + 1) (r.kind :: r.flags :: byte r.fields.length :: (r.fields ++ rest)) = _
  rw [splitRecords, hn, if_pos (by simp), List.drop_left, List.take_left]

/-- Bytes that are cut into records are those records, one after the other. -/
theorem flatMap_of_splitRecords {fuel : Nat} {l : List Byte} {rs : List RawStep} (h : splitRecords fuel l = some rs) :
    (∀ r ∈ rs, r.Fits) ∧ rs.flatMap RawStep.bytes = l := by
  induction fuel generalizing l rs with
  | zero =>
    cases l with
    | nil => obtain rfl : [] = rs := Option.some.inj h; simp
    | cons b l => exact absurd h (by simp [splitRecords])
  | succ fuel ih =>
    match l, h with
    | [], h => obtain rfl : [] = rs := Option.some.inj h; simp
    | [_], h => exact absurd h (by simp [splitRecords])
    | [_, _], h => exact absurd h (by simp [splitRecords])
    | kind :: flags :: n :: rest, h =>
      rw [splitRecords] at h
      split at h
      · next hn =>
        obtain ⟨tail, htail, rfl⟩ := Option.map_eq_some_iff.mp h
        obtain ⟨hfits, htail⟩ := ih htail
        have hlen : (rest.take n.toNat).length = n.toNat := List.length_take_of_le hn
        refine ⟨List.forall_mem_cons.mpr ⟨by rw [RawStep.Fits, hlen]; exact n.isLt, hfits⟩, ?_⟩
        rw [List.flatMap_cons, htail]
        simp only [RawStep.bytes, recordBytes, hlen, byte_of_toNat, List.cons_append, List.take_append_drop]
      · exact absurd h (by simp)

theorem splitRecords_flatMap {fuel : Nat} {rs : List RawStep} (hfits : ∀ r ∈ rs, r.Fits)
    (hfuel : (rs.flatMap RawStep.bytes).length ≤ fuel) : splitRecords fuel (rs.flatMap RawStep.bytes) = some rs := by
  induction rs generalizing fuel with
  | nil => cases fuel <;> rfl
  | cons r rs ih =>
    obtain ⟨hr, hrs⟩ := List.forall_mem_cons.mp hfits
    have hpos : r.bytes.length = r.fields.length + 3 := rfl
    rw [List.flatMap_cons, List.length_append] at hfuel
    obtain ⟨fuel, rfl⟩ : ∃ k, fuel = k + 1 := ⟨fuel - 1, by omega⟩
    rw [List.flatMap_cons, splitRecords_record fuel hr, ih hrs (by omega)]
    rfl

/-- The records of a run of bytes are the ones whose bytes it is. -/
theorem recordsOf_eq_some {l : List Byte} {rs : List RawStep} :
    recordsOf l = some rs ↔ (∀ r ∈ rs, r.Fits) ∧ rs.flatMap RawStep.bytes = l :=
  ⟨flatMap_of_splitRecords, fun ⟨hfits, h⟩ => h ▸ splitRecords_flatMap hfits (Nat.le_refl _)⟩

/-! ## The record of a step -/

/-- The record that holds a step (10 R179). -/
def Step.raw : Step → RawStep
  | .quick dir join => ⟨0x01#8, stepFlags join false false dir, []⟩
  | .write command bytes join tolerate => ⟨0x02#8, stepFlags join tolerate command.isSome false, command.toList ++ bytes⟩
  | .read command length join => ⟨0x03#8, stepFlags join false command.isSome false, command.toList ++ [byte length]⟩
  | .readBlock command join => ⟨0x04#8, stepFlags join false true false, [command]⟩
  | .waitUntil command length mask want interval limit =>
    ⟨0x05#8, stepFlags false false true false, [command, byte length] ++ mask ++ want ++ [byte interval, byte limit]⟩
  | .pause n => ⟨0x06#8, 0#8, [byte n]⟩

theorem raw_bytes (x : Step) : x.raw.bytes = x.bytes := by cases x <;> rfl

theorem raw_fits {x : Step} (h : x.inRange = true) : x.raw.Fits := by
  unfold RawStep.Fits
  cases x with
  | write c bytes =>
    simp only [Step.inRange, Bool.and_eq_true, decide_eq_true_eq] at h
    cases c <;> simp [Step.raw] <;> omega
  | read c => cases c <;> simp [Step.raw]
  | waitUntil c n mask want =>
    simp only [Step.inRange, within, Bool.and_eq_true, decide_eq_true_eq, beq_iff_eq] at h
    simp only [Step.raw, List.length_append, List.length_cons, List.length_nil]
    omega
  | quick => exact Nat.zero_lt_succ _
  | readBlock => simp [Step.raw]
  | pause => simp [Step.raw]

/-- The flags of a flag byte are read back, and no other bit is set. -/
theorem stepFlags_bits : ∀ join tolerate command read : Bool,
    (stepFlags join tolerate command read).getLsbD 0 = join ∧ (stepFlags join tolerate command read).getLsbD 1 = tolerate ∧
    (stepFlags join tolerate command read).getLsbD 2 = command ∧ (stepFlags join tolerate command read).getLsbD 3 = read ∧
    (stepFlags join tolerate command read).toNat < 16 := by decide

theorem stepFlags_of_bits {b : Byte} (h : b.toNat < 16) :
    stepFlags (b.getLsbD 0) (b.getLsbD 1) (b.getLsbD 2) (b.getLsbD 3) = b := by
  have key : ∀ n : Fin 16, stepFlags ((byte n).getLsbD 0) ((byte n).getLsbD 1) ((byte n).getLsbD 2) ((byte n).getLsbD 3) = byte n := by
    decide
  have := key ⟨b.toNat, h⟩
  rwa [byte_of_toNat] at this


/-! ## What a record is read as, kind by kind -/

section
variable {join tolerate command read : Bool} {fields : List Byte} {x : Step}

theorem step_of_quick : RawStep.step ⟨0x01#8, stepFlags join tolerate command read, fields⟩ = some x ↔
    (tolerate = false ∧ command = false) ∧ fields = [] ∧ .quick read join = x := by
  obtain ⟨b0, b1, b2, b3, hf⟩ := stepFlags_bits join tolerate command read
  simp only [RawStep.step, b0, b1, b2, b3, if_neg (Nat.not_le.mpr hf), if_true]
  simp [ite_eq_iff]

theorem step_of_write : RawStep.step ⟨0x02#8, stepFlags join tolerate command read, fields⟩ = some x ↔
    read = false ∧ ((∃ c bytes, (command = true ∧ fields = c :: bytes) ∧ bytes.length ≤ 32 ∧ .write (some c) bytes join tolerate = x) ∨
      (command = false ∧ within 1 32 fields.length = true ∧ .write none fields join tolerate = x)) := by
  obtain ⟨b0, b1, b2, b3, hf⟩ := stepFlags_bits join tolerate command read
  simp only [RawStep.step, b0, b1, b2, b3, if_neg (Nat.not_le.mpr hf)]
  cases command <;> cases fields <;> simp

theorem step_of_read : RawStep.step ⟨0x03#8, stepFlags join tolerate command read, fields⟩ = some x ↔
    (tolerate = false ∧ read = false) ∧ ∃ n, within 1 32 n.toNat = true ∧
      ((∃ c, (command = true ∧ fields = [c, n]) ∧ .read (some c) n.toNat join = x) ∨
        ((command = false ∧ fields = [n]) ∧ .read none n.toNat join = x)) := by
  obtain ⟨b0, b1, b2, b3, hf⟩ := stepFlags_bits join tolerate command read
  simp only [RawStep.step, b0, b1, b2, b3, if_neg (Nat.not_le.mpr hf)]
  cases command <;> match fields with
    | [] => simp
    | [_] => simp
    | [_, _] => simp
    | _ :: _ :: _ :: _ => simp

theorem step_of_readBlock : RawStep.step ⟨0x04#8, stepFlags join tolerate command read, fields⟩ = some x ↔
    (tolerate = false ∧ read = false) ∧ ∃ c, (command = true ∧ fields = [c]) ∧ .readBlock c join = x := by
  obtain ⟨b0, b1, b2, b3, hf⟩ := stepFlags_bits join tolerate command read
  simp only [RawStep.step, b0, b1, b2, b3, if_neg (Nat.not_le.mpr hf)]
  cases command <;> match fields with
    | [] => simp
    | [_] => simp
    | _ :: _ :: _ => simp

/-- The fields of a WAIT_UNTIL after its first two: the mask, the wanted value, and two bytes. -/
theorem waitFields_iff {rest mask want : List Byte} {n : Nat} {a b : Byte} :
    rest = mask ++ want ++ [a, b] ∧ mask.length = n ∧ want.length = n ↔
      rest.length = 2 * n + 2 ∧ rest.take n = mask ∧ (rest.drop n).take n = want ∧ byteAt rest (2 * n) = a ∧
        byteAt rest (2 * n + 1) = b := by
  constructor
  · rintro ⟨rfl, hm, hw⟩
    have hlen : (mask ++ want).length = 2 * n := by simp [hm, hw]; omega
    refine ⟨by rw [List.length_append, hlen]; rfl, by simp [← hm], by simp [← hm, hw], ?_, ?_⟩
    · rw [byteAt, List.getD_append_right _ _ _ _ (Nat.le_of_eq hlen), hlen, Nat.sub_self]
      rfl
    · rw [byteAt, List.getD_append_right _ _ _ _ (by omega), hlen, Nat.add_sub_cancel_left]
      rfl
  · rintro ⟨hlen, rfl, rfl, rfl, rfl⟩
    have hlast : (rest.drop n).drop n = [byteAt rest (2 * n), byteAt rest (2 * n + 1)] := by
      rw [List.drop_drop, ← Nat.two_mul, List.drop_eq_getElem_cons (by omega), List.drop_eq_getElem_cons (by omega),
        List.drop_of_length_le (by omega), byteAt, byteAt, List.getD_eq_getElem _ _ (by omega), List.getD_eq_getElem _ _ (by omega)]
    refine ⟨?_, by simp; omega, by simp; omega⟩
    rw [← hlast, List.append_assoc, List.take_append_drop, List.take_append_drop]

theorem step_of_waitUntil : RawStep.step ⟨0x05#8, stepFlags join tolerate command read, fields⟩ = some x ↔
    (join = false ∧ tolerate = false ∧ read = false) ∧ ∃ c n mask want interval limit,
      (command = true ∧ fields = c :: n :: (mask ++ want ++ [interval, limit])) ∧
      (within 1 4 n.toNat = true ∧ mask.length = n.toNat ∧ want.length = n.toNat ∧ within 1 255 interval.toNat = true ∧
        within 1 255 limit.toNat = true) ∧ .waitUntil c n.toNat mask want interval.toNat limit.toNat = x := by
  obtain ⟨b0, b1, b2, b3, hf⟩ := stepFlags_bits join tolerate command read
  simp only [RawStep.step, b0, b1, b2, b3, if_neg (Nat.not_le.mpr hf)]
  cases command
  case false => simp
  match fields with
  | [] => simp
  | [_] => simp
  | c :: n :: rest =>
    simp only [BitVec.reduceEq, if_true, if_false, List.cons.injEq, Bool.or_eq_true, Bool.and_eq_true, beq_iff_eq]
    constructor
    · intro h
      split at h
      · simp at h
      · next hflags =>
        split at h
        · next hfields =>
          obtain ⟨⟨⟨hn, hlen⟩, hi⟩, hl⟩ := hfields
          obtain ⟨hrest, hm, hw⟩ := waitFields_iff.mpr ⟨hlen, rfl, rfl, rfl, rfl⟩
          exact ⟨by simpa [not_or, and_assoc] using hflags, c, n, _, _, _, _, ⟨trivial, rfl, rfl, hrest⟩, ⟨hn, hm, hw, hi, hl⟩,
            Option.some.inj h⟩
        · simp at h
    · rintro ⟨⟨rfl, rfl, rfl⟩, _, _, mask, want, interval, limit, ⟨-, rfl, rfl, hrest⟩, ⟨hn, hm, hw, hi, hl⟩, rfl⟩
      obtain ⟨hlen, f1, f2, f3, f4⟩ := waitFields_iff.mp ⟨hrest, hm, hw⟩
      simp [hlen, f1, f2, f3, f4, hn, hi, hl]

theorem step_of_pause {flags : Byte} : RawStep.step ⟨0x06#8, flags, fields⟩ = some x ↔
    flags = 0#8 ∧ ∃ n, fields = [n] ∧ within 1 255 n.toNat = true ∧ .pause n.toNat = x := by
  by_cases hf : flags = 0#8
  · subst hf
    match fields with
    | [] => simp [RawStep.step]
    | [_] => simp [RawStep.step]
    | _ :: _ :: _ => simp [RawStep.step]
  · simp [RawStep.step, hf]
end

/-- A record that is read as a step is the record of that step, which is in range. -/
theorem raw_of_step {r : RawStep} {x : Step} (h : r.step = some x) : x.inRange = true ∧ x.raw = r := by
  obtain ⟨kind, flags, fields⟩ := r
  have hflags : flags.toNat < 16 := Nat.lt_of_not_le fun hf => by simp [RawStep.step, hf] at h
  have hkind : kind = 0x01#8 ∨ kind = 0x02#8 ∨ kind = 0x03#8 ∨ kind = 0x04#8 ∨ kind = 0x05#8 ∨ kind = 0x06#8 := by
    by_contra hk
    simp only [not_or] at hk
    simp [RawStep.step, hk] at h
  obtain ⟨join, tolerate, command, read, rfl⟩ : ∃ j t c r, stepFlags j t c r = flags := ⟨_, _, _, _, stepFlags_of_bits hflags⟩
  obtain rfl | rfl | rfl | rfl | rfl | rfl := hkind
  · obtain ⟨⟨rfl, rfl⟩, rfl, rfl⟩ := step_of_quick.mp h
    exact ⟨rfl, rfl⟩
  · obtain ⟨rfl, ⟨c, bytes, ⟨rfl, rfl⟩, hlen, rfl⟩ | ⟨rfl, hlen, rfl⟩⟩ := step_of_write.mp h
    · exact ⟨by simpa [Step.inRange] using hlen, rfl⟩
    · obtain ⟨hpos, hlen⟩ := within_iff.mp hlen
      exact ⟨by simpa [Step.inRange, hlen] using List.ne_nil_of_length_pos hpos, rfl⟩
  · obtain ⟨⟨rfl, rfl⟩, n, hn, ⟨c, ⟨rfl, rfl⟩, rfl⟩ | ⟨⟨rfl, rfl⟩, rfl⟩⟩ := step_of_read.mp h
    · exact ⟨hn, by simp [Step.raw, byte_of_toNat]⟩
    · exact ⟨hn, by simp [Step.raw, byte_of_toNat]⟩
  · obtain ⟨⟨rfl, rfl⟩, c, ⟨rfl, rfl⟩, rfl⟩ := step_of_readBlock.mp h
    exact ⟨rfl, rfl⟩
  · obtain ⟨⟨rfl, rfl, rfl⟩, c, n, mask, want, interval, limit, ⟨rfl, rfl⟩, ⟨hn, hm, hw, hi, hl⟩, rfl⟩ := step_of_waitUntil.mp h
    exact ⟨by simp [Step.inRange, hn, hm, hw, hi, hl], by simp [Step.raw, byte_of_toNat]⟩
  · obtain ⟨hzero, n, rfl, hn, rfl⟩ := step_of_pause.mp h
    exact ⟨hn, by simp [Step.raw, byte_of_toNat, hzero]⟩

/-- The record of a step in range is read as that step. -/
theorem step_raw {x : Step} (h : x.inRange = true) : x.raw.step = some x := by
  cases x with
  | quick dir join => exact step_of_quick.mpr ⟨⟨rfl, rfl⟩, rfl, rfl⟩
  | write c bytes join tolerate =>
    simp only [Step.inRange, Bool.and_eq_true, decide_eq_true_eq] at h
    cases c with
    | none =>
      have hne : bytes ≠ [] := by simpa using h.2
      exact step_of_write.mpr ⟨rfl, Or.inr ⟨rfl, within_iff.mpr ⟨List.length_pos_iff.mpr hne, h.1⟩, rfl⟩⟩
    | some c => exact step_of_write.mpr ⟨rfl, Or.inl ⟨c, bytes, ⟨rfl, rfl⟩, h.1, rfl⟩⟩
  | read c n join =>
    have hn : (byte n).toNat = n := byte_toNat_of_within h (by decide)
    refine step_of_read.mpr ⟨⟨rfl, rfl⟩, byte n, by rw [hn]; exact h, ?_⟩
    cases c with
    | none => exact Or.inr ⟨⟨rfl, rfl⟩, by rw [hn]⟩
    | some c => exact Or.inl ⟨c, ⟨rfl, rfl⟩, by rw [hn]⟩
  | readBlock c join => exact step_of_readBlock.mpr ⟨⟨rfl, rfl⟩, c, ⟨rfl, rfl⟩, rfl⟩
  | waitUntil c n mask want interval limit =>
    simp only [Step.inRange, Bool.and_eq_true, beq_iff_eq] at h
    obtain ⟨⟨⟨⟨hn, hm⟩, hw⟩, hi⟩, hl⟩ := h
    have en : (byte n).toNat = n := byte_toNat_of_within hn (by decide)
    have ei : (byte interval).toNat = interval := byte_toNat_of_within hi (by decide)
    have el : (byte limit).toNat = limit := byte_toNat_of_within hl (by decide)
    refine step_of_waitUntil.mpr ⟨⟨rfl, rfl, rfl⟩, c, byte n, mask, want, byte interval, byte limit, ⟨rfl, by simp⟩, ?_, ?_⟩
    · rw [en, ei, el]
      exact ⟨hn, hm, hw, hi, hl⟩
    · rw [en, ei, el]
  | pause n =>
    have hn : (byte n).toNat = n := byte_toNat_of_within h (by decide)
    exact step_of_pause.mpr ⟨rfl, byte n, rfl, by rw [hn]; exact h, by rw [hn]⟩

/-- A record is read as a step exactly when it is the record of that step, and the step is in range (02 R25, 10 R179). -/
theorem step_eq_some {r : RawStep} {x : Step} : r.step = some x ↔ x.inRange = true ∧ x.raw = r :=
  ⟨raw_of_step, fun ⟨h, e⟩ => e ▸ step_raw h⟩

/-- A list of records is read as the steps whose records they are. -/
theorem mapM_step_eq_some {rs : List RawStep} {l : List Step} :
    rs.mapM RawStep.step = some l ↔ (∀ x ∈ l, x.inRange = true) ∧ l.map Step.raw = rs := by
  induction rs generalizing l with
  | nil =>
    rw [List.map_eq_nil_iff]
    constructor
    · intro h
      obtain rfl : [] = l := by simpa using h
      simp
    · rintro ⟨-, rfl⟩
      rfl
  | cons r rs ih =>
    rw [List.mapM_cons]
    constructor
    · intro h
      obtain ⟨x, hx, h⟩ := Option.bind_eq_some_iff.mp h
      obtain ⟨xs, hxs, h⟩ := Option.bind_eq_some_iff.mp h
      obtain rfl : x :: xs = l := Option.some.inj h
      obtain ⟨hin, hraw⟩ := step_eq_some.mp hx
      obtain ⟨hins, hraws⟩ := ih.mp hxs
      exact ⟨List.forall_mem_cons.mpr ⟨hin, hins⟩, by rw [List.map_cons, hraw, hraws]⟩
    · rintro ⟨hin, h⟩
      obtain ⟨x, xs, rfl, hx, hxs⟩ := List.map_eq_cons_iff.mp h
      obtain ⟨hin, hins⟩ := List.forall_mem_cons.mp hin
      simp [step_eq_some.mpr ⟨hin, hx⟩, ih.mpr ⟨hins, hxs⟩]

/-- Settles O29: the records are cut in one way, and each is the record of the step it is read as. -/
theorem stepRecordsAreReadBack : Obligations.StepRecordsAreReadBack := by
  intro bytes l
  have hbytes : (l.map Step.raw).flatMap RawStep.bytes = l.flatMap Step.bytes := by
    rw [List.flatMap_map]
    exact congrArg (l.flatMap ·) (funext raw_bytes)
  unfold stepsOf
  rw [Option.bind_eq_some_iff]
  constructor
  · rintro ⟨rs, hcut, hread⟩
    obtain ⟨hin, rfl⟩ := mapM_step_eq_some.mp hread
    exact ⟨hin, hbytes.symm.trans (recordsOf_eq_some.mp hcut).2⟩
  · rintro ⟨hin, rfl⟩
    refine ⟨l.map Step.raw, recordsOf_eq_some.mpr ⟨fun r hr => ?_, hbytes⟩, mapM_step_eq_some.mpr ⟨hin, rfl⟩⟩
    obtain ⟨x, hx, rfl⟩ := List.mem_map.mp hr
    exact raw_fits (hin x hx)


end Sys2Proof.Machine
end

section
/-! PROOFS. The requests that name a handle: the checks on it, and what each makes of the conversation it names (R22, R29, R31, R41,
R42). -/

namespace Sys2Proof.Machine

variable {d : Device}

/-! ## The handle (R22) -/

theorem handleAt_none {b0 b1 b2 : Byte} {rest : List Byte} (h : 32 ≤ b0.toNat ∨ 2048 ≤ (b2 ++ b1).toNat) :
    handleAt (b0 :: b1 :: b2 :: rest) = none := by
  unfold handleAt
  obtain h | h := h
  · rw [show index 32 (byteAt (b0 :: b1 :: b2 :: rest) 0) = none from index_none h]
  · have hgen : ¬ (halfAt (b0 :: b1 :: b2 :: rest) 1).toNat < 2048 := Nat.not_lt.mpr h
    split
    · rw [if_neg hgen]
    · rfl

theorem handleAt_slot (i : SlotId) {b1 b2 : Byte} (rest : List Byte) (h : (b2 ++ b1).toNat < 2048) :
    handleAt (byte i.val :: b1 :: b2 :: rest) = some ⟨i, (b2 ++ b1).setWidth 11⟩ := by
  unfold handleAt
  rw [show index 32 (byteAt (byte i.val :: b1 :: b2 :: rest) 0) = some i from index_byte i (by decide)]
  exact if_pos h

theorem onConversation_outOfRange {body : List Byte} (f : SlotId → Device → Reply × Device) (h : handleAt body = none) (d : Device) :
    onConversation body f d = (refuse .badField, d) := by rw [onConversation, h]

theorem onConversation_unknown {body : List Byte} {h : Handle} (f : SlotId → Device → Reply × Device) (hb : handleAt body = some h)
    (hd : (d.slot h.slot).state = .free ∨ (d.slot h.slot).gen ≠ h.gen) :
    onConversation body f d = (refuse .unknownConversation, d) := by
  rw [onConversation, hb]
  exact if_pos hd

/-- A handle that names a conversation leads to the request's own checks. -/
theorem onConversation_named {body : List Byte} {h : Handle} (f : SlotId → Device → Reply × Device) (hb : handleAt body = some h)
    (hgen : (d.slot h.slot).gen = h.gen) (hstate : (d.slot h.slot).state ≠ .free) : onConversation body f d = f h.slot d := by
  rw [onConversation, hb]
  exact if_neg fun e => e.elim hstate fun e => e hgen

/-- The five requests that name a handle check it, and then do what they do. -/
theorem owner_onConversation {k : RequestKind}
    (hk : k = .cancelConversation ∨ k = .appendSteps ∨ k = .submitConversation ∨ k = .conversationStatus ∨ k = .fetchResult)
    (body : List Byte) : ∃ f, ∀ d, owner k body d = onConversation body f d := by
  obtain rfl | rfl | rfl | rfl | rfl := hk <;> exact ⟨_, fun _ => rfl⟩

/-- Two requests alone bring a note of the wire. -/
theorem noteOf_none {c : Instr} {k : RequestKind} {tag : Byte} {body : List Byte} (hc : requestOf c = some (k, tag, body))
    (hs : k ≠ .segmentStatus) (hr : k ≠ .resetSegment) : noteOf c = none := by
  cases c
  case segmentStatus => exact absurd (congrArg Prod.fst (Option.some.inj hc)).symm hs
  case resetSegment => exact absurd (congrArg Prod.fst (Option.some.inj hc)).symm hr
  all_goals rfl

/-- Settles O28: the five requests go through the two checks of R22. -/
theorem handleIsCheckedBeforeAnythingElse : Obligations.HandleIsCheckedBeforeAnythingElse := by
  intro c k tag b0 b1 b2 rest s o hc hk hb hl ha
  have hnote : noteOf c = none := by
    obtain rfl | rfl | rfl | rfl | rfl := hk <;> exact noteOf_none hc (by decide) (by decide)
  obtain ⟨f, hf⟩ := owner_onConversation hk (b0 :: b1 :: b2 :: rest)
  rw [Nat.add_comm] at ha
  have run : ∀ (r : Reply) {t : Device}, onConversation (b0 :: b1 :: b2 :: rest) f (found o s.dev) = (r, t) →
      exec c s = replyTo s (k.code + 0x80#8) tag (r.status.code :: r.fields) t :=
    fun r _ h => request_reply k _ r hc hnote rfl (by simp only [List.length_cons]; omega) ha hl ((hf _).trans h)
  refine ⟨fun h => run (refuse .badField) (onConversation_outOfRange f (handleAt_none h) _), fun i hi hrange h => ?_⟩
  subst hi
  refine run (refuse .unknownConversation) (onConversation_unknown f (handleAt_slot i rest hrange) (h.imp_right fun hgen e => hgen ?_))
  have e : (s.dev.slot i).gen = (b2 ++ b1).setWidth 11 := e
  rw [e, BitVec.toNat_setWidth, Nat.mod_eq_of_lt hrange]

/-- The answer of a request whose handle names a conversation. -/
theorem conversation_reply {c : Instr} {tag kind : Byte} {s : State} {o : Outbound} {u : Device} (k : RequestKind) {h : Handle}
    {body : List Byte} {f : SlotId → Device → Reply × Device} (r : Reply) (hc : requestOf c = some (k, tag, body))
    (hn : noteOf c = none) (hk : k.code + 0x80#8 = kind) (hf : ∀ d, owner k body d = onConversation body f d)
    (hb : body.length ≤ 60) (ha : accepts s.dev body.length o = true) (hl : lengthAllowed k body = true)
    (hbody : handleAt body = some h) (hgen : (s.dev.slot h.slot).gen = h.gen) (hstate : (s.dev.slot h.slot).state ≠ .free)
    (hr : f h.slot (found o s.dev) = (r, u)) : exec c s = replyTo s kind tag (r.status.code :: r.fields) u :=
  request_reply k body r hc hn hk hb ha hl ((hf _).trans ((onConversation_named (d := found o s.dev) f hbody hgen hstate).trans hr))

theorem handleAt_handle (h : Handle) : handleAt h.bytes = some h := by
  have key := handleAt_bytes h []
  rwa [List.append_nil] at key

/-! ## APPEND_STEPS (R29) -/

theorem stepsOf_bytes {l : List Step} (h : ∀ x ∈ l, x.inRange = true) : stepsOf (l.flatMap Step.bytes) = some l :=
  (stepRecordsAreReadBack _ _).mpr ⟨h, rfl⟩

theorem recordsOf_bytes {l : List Step} (h : ∀ x ∈ l, x.inRange = true) : (recordsOf (l.flatMap Step.bytes)).isSome = true := by
  obtain ⟨rs, hrs, -⟩ := Option.bind_eq_some_iff.mp (stepsOf_bytes h)
  rw [hrs]
  rfl

theorem joinsAllowed_iff (l : List Step) : joinsAllowed l = true ↔ joinsFollowed l := by
  induction l with
  | nil => exact ⟨fun _ k a b ha => by simp at ha, fun _ => rfl⟩
  | cons x l ih =>
    cases l with
    | nil => exact ⟨fun _ k a b _ hb => by simp at hb, fun _ => rfl⟩
    | cons y l =>
      have first : (!x.joined || y.mayFollowJoin) = true ↔ (x.joined = true → y.mayFollowJoin = true) := by
        cases x.joined <;> simp
      rw [joinsAllowed, Bool.and_eq_true, first, ih]
      constructor
      · rintro ⟨hxy, hrest⟩ k a b ha hb
        cases k with
        | zero =>
          obtain rfl : x = a := Option.some.inj ha
          obtain rfl : y = b := Option.some.inj hb
          exact hxy
        | succ k => exact hrest k a b ha hb
      · exact fun h => ⟨h 0 x y rfl rfl, fun k a b ha hb => h (k + 1) a b ha hb⟩

theorem joinsAllowed_false {l : List Step} (h : ¬ joinsFollowed l) : ¬ joinsAllowed l = true := fun e => h ((joinsAllowed_iff l).mp e)

/-- Settles O32: the records are read back as the steps, and the checks of R29 follow in their order. -/
theorem appendAddsAllStepsOrNone : Obligations.AppendAddsAllStepsOrNone := by
  intro s tag h new o hnew body hb ha hgen hfree c steps
  have hdrop : body.drop 3 = new.flatMap Step.bytes := rfl
  have hl : lengthAllowed .appendSteps body = true := by
    show (decide (3 ≤ body.length) && (recordsOf (body.drop 3)).isSome) = true
    rw [hdrop, recordsOf_bytes hnew, Bool.and_true, decide_eq_true_iff]
    show 3 ≤ (h.bytes ++ _).length
    rw [List.length_append]
    exact Nat.le_add_right 3 _
  have run : ∀ (r : Reply) {t : Device}, appendSteps body h.slot (found o s.dev) = (r, t) →
      exec c s = replyTo s 0xB1#8 tag (r.status.code :: r.fields) t := fun r _ =>
    conversation_reply .appendSteps r rfl rfl rfl (fun _ => rfl) hb ha hl (handleAt_bytes h _) hgen hfree
  have key : (s.dev.slot h.slot).state = .assembling → appendSteps body h.slot (found o s.dev) =
      if joinsAllowed steps then
        if withinLimits steps then
          (⟨.ok, [byte steps.length]⟩, (found o s.dev).updSlot h.slot fun x =>
            { x with conv := { x.conv with steps := steps, assemblyTimer := some 1000 } })
        else (refuse .limit, found o s.dev)
      else (refuse .badField, found o s.dev) := fun hs => by
    rw [appendSteps, found_slot, if_pos hs, hdrop, stepsOf_bytes hnew]
    rfl
  refine ⟨fun hs => run (refuse .wrongState) (if_neg hs), fun hs hj => run (refuse .badField) ?_, fun hs hj hw => run (refuse .limit) ?_,
    fun hs hj hw => run ⟨.ok, [byte steps.length]⟩ ?_⟩
  · rw [key hs, if_neg (joinsAllowed_false hj)]
  · rw [key hs, if_pos ((joinsAllowed_iff _).mpr hj), if_neg (by simp [hw])]
  · rw [key hs, if_pos ((joinsAllowed_iff _).mpr hj), if_pos hw]

/-! ## SUBMIT_CONVERSATION (R31) -/

theorem lastJoined_concat (l : List Step) (x : Step) : lastJoined (l ++ [x]) = x.joined := by simp [lastJoined]

/-- A conversation is queued under its class on its segment. -/
theorem queueConversation_eq (i : SlotId) (d : Device) : queueConversation i d =
    (d.updSlot i fun x =>
      { x with state := .queued, conv := { x.conv with assemblyTimer := none, deadlineTimer := x.conv.deadline } }).updSeg
      (targetSegment d (d.slot i).conv.target) (Segment.enqueue (d.slot i).conv.cls (d.handle i)) := by
  have hhandle : ∀ f : Slot → Slot, (∀ x, (f x).gen = x.gen) → (d.updSlot i f).handle i = d.handle i := fun f hf => by
    rw [Device.handle, updSlot_slot_same, hf]
    rfl
  have htarget : ∀ f : Slot → Slot, targetSegment (d.updSlot i f) (d.slot i).conv.target = targetSegment d (d.slot i).conv.target :=
    fun f => by cases (d.slot i).conv.target <;> rfl
  unfold queueConversation
  dsimp only
  rw [hhandle, htarget]
  intro x
  rfl

/-- Settles O33: the checks of R31 in their order. -/
theorem submitQueuesUnderTheClass : Obligations.SubmitQueuesUnderTheClass := by
  intro s tag h o ha hgen hfree c v seg assembling
  have run : ∀ (r : Reply) {t : Device}, submitConversation h.slot (found o s.dev) = (r, t) →
      exec c s = replyTo s 0xB2#8 tag (r.status.code :: r.fields) t := fun r _ =>
    conversation_reply .submitConversation r rfl rfl rfl (fun _ => rfl) (by decide : 3 ≤ 60) ha rfl (handleAt_handle h) hgen hfree
  have hseg : targetSegment (found o s.dev) v.target = seg := by cases hv : v.target <;> simp [seg, hv, targetSegment]
  have hhandle : (found o s.dev).handle h.slot = h := by rw [Device.handle, found_slot, hgen]
  have key : assembling → submitConversation h.slot (found o s.dev) =
      if v.steps = [] then (refuse .empty, found o s.dev)
      else if lastJoined v.steps then (refuse .badField, found o s.dev)
      else if (s.dev.seg seg).state = .off then (refuse .segmentOff, found o s.dev)
      else (⟨.ok, []⟩, makeSelection seg (queueConversation h.slot (found o s.dev))) := fun hs => by
    rw [← hseg]
    exact if_pos hs
  refine ⟨fun hs => run (refuse .wrongState) (if_neg hs), fun hs hv => run (refuse .empty) ?_,
    fun l x hs hv hx => run (refuse .badField) ?_, fun l x hs hv hx hoff => run (refuse .segmentOff) ?_, fun l x hs hv hx hon => run ⟨.ok, []⟩ ?_⟩
  · rw [key hs, if_pos hv]
  · rw [key hs, if_neg (by simp [hv]), hv, lastJoined_concat, if_pos hx]
  · rw [key hs, if_neg (by simp [hv]), hv, lastJoined_concat, if_neg (by simp [hx]), if_pos hoff]
  · rw [key hs, if_neg (by simp [hv]), hv, lastJoined_concat, if_neg (by simp [hx]), if_neg hon, queueConversation_eq, hhandle, enqueue_eq]
    exact congrArg (fun g => (Reply.mk .ok [], makeSelection seg (Device.updSeg g _ _))) hseg

/-! ## CONVERSATION_STATUS (R41) -/

theorem stopAndOutcome_waiting {x : Slot} (hr : x.state ≠ .running) (hd : x.state ≠ .done) : stopAndOutcome x = [0#8, 0#8, 0#8] := by
  rw [stopAndOutcome, show shownStop x = none from if_neg hr, show shownOutcome x = none from if_neg hd]
  rfl

theorem stopAndOutcome_running {x : Slot} (hs : x.state = .running) : stopAndOutcome x =
    match x.conv.stop with
    | none => [0#8, 0#8, 0#8]
    | some c => [1#8, c.outcome.code, 0#8] := by
  rw [stopAndOutcome, show shownStop x = x.conv.stop from if_pos hs, show shownOutcome x = none from if_neg (by simp [hs])]
  cases x.conv.stop <;> rfl

theorem stopAndOutcome_done {x : Slot} {r : ConvResult} (hs : x.state = .done) (hr : x.conv.result = some r) :
    stopAndOutcome x = [2#8, 0#8, r.outcome.code] := by
  have hout : shownOutcome x = some r.outcome := by rw [shownOutcome, if_pos hs, hr]; rfl
  rw [stopAndOutcome, show shownStop x = none from if_neg (by simp [hs]), hout]
  rfl

theorem completedCount_waiting {i : SlotId} (h : (d.slot i).state = .assembling ∨ (d.slot i).state = .queued) : completedCount i d = 0 := by
  unfold completedCount
  obtain h | h := h <;> simp only [h]

theorem completedCount_running {i : SlotId} {hd : Handle} {ctx : Context} (hs : (d.slot i).state = .running)
    (hw : (d.seg (targetSegment d (d.slot i).conv.target)).work = .conversation hd ctx) (hi : hd.slot = i) :
    completedCount i d = ctx.completed := by simp only [completedCount, hs, hw, hi, if_true]

theorem completedCount_done {i : SlotId} {r : ConvResult} (hs : (d.slot i).state = .done) (hr : (d.slot i).conv.result = some r) :
    completedCount i d = r.completed := by
  simp only [completedCount, hs, hr]
  rfl

theorem targetSegment_found (o : Outbound) (d : Device) (t : Target) : targetSegment (found o d) t = targetSegment d t := by cases t <;> rfl

theorem found_completedCount (o : Outbound) (d : Device) (i : SlotId) : completedCount i (found o d) = completedCount i d := by
  simp only [completedCount, found_slot, targetSegment_found, found_seg]

/-- Settles O36: the fields are read off the slot and, in RUNNING, off its segment's engine. -/
theorem conversationStatusShowsTheSlot : Obligations.ConversationStatusShowsTheSlot := by
  intro s tag h o ha hgen c x origin n
  have horigin : x.conv.origin.bytes = origin := by
    show x.conv.origin.bytes = match x.conv.origin with | .host => _ | .poll _ _ => _
    cases x.conv.origin <;> rfl
  have run : x.state ≠ .free → ∀ {code : Byte} {k : Nat} {shown : List Byte}, x.state.code = code → completedCount h.slot s.dev = k →
      stopAndOutcome x = shown → exec c s = replyTo s 0xB5#8 tag ([0x00#8, code] ++ origin ++ (n :: byte k :: shown)) (found o s.dev) := by
    rintro hfree code k shown rfl rfl rfl
    have key := conversation_reply (c := c) (kind := 0xB5#8) .conversationStatus (conversationStatus h.slot (found o s.dev)).1 rfl rfl rfl
      (fun _ => rfl) (show 3 ≤ 60 by decide) ha rfl (handleAt_handle h) hgen hfree rfl
    have hfields : (conversationStatus h.slot (found o s.dev)).1.fields =
        x.state.code :: (origin ++ (n :: byte (completedCount h.slot s.dev) :: stopAndOutcome x)) := by
      rw [← horigin, ← found_completedCount o]
      simp [conversationStatus, x, n]
    rwa [hfields] at key
  refine ⟨fun hs => ?_, fun hs => ?_, fun hd ctx hs hw hi => ⟨fun hstop => ?_, fun cause hstop => ?_⟩, fun r hs hr => ?_⟩
  · exact run (by simp [hs]) (by rw [hs]; rfl) (completedCount_waiting (Or.inl hs)) (stopAndOutcome_waiting (by simp [hs]) (by simp [hs]))
  · exact run (by simp [hs]) (by rw [hs]; rfl) (completedCount_waiting (Or.inr hs)) (stopAndOutcome_waiting (by simp [hs]) (by simp [hs]))
  · exact run (by simp [hs]) (by rw [hs]; rfl) (completedCount_running hs hw hi) (by rw [stopAndOutcome_running hs, hstop])
  · exact run (by simp [hs]) (by rw [hs]; rfl) (completedCount_running hs hw hi) (by rw [stopAndOutcome_running hs, hstop])
  · exact run (by simp [hs]) (by rw [hs]; rfl) (completedCount_done hs hr) (stopAndOutcome_done hs hr)

/-! ## FETCH_RESULT (R42) -/

/-- Settles O37: the offset first, then the state. -/
theorem fetchResultAnswersAndReleases : Obligations.FetchResultAnswersAndReleases := by
  intro s tag offset release h o ha hgen hfree c
  have run : ∀ (r : Reply) {t : Device}, fetchResult (h.bytes ++ [offset, release]) h.slot (found o s.dev) = (r, t) →
      exec c s = replyTo s 0xB6#8 tag (r.status.code :: r.fields) t := fun r _ =>
    conversation_reply .fetchResult r rfl rfl rfl (fun _ => rfl) (show 5 ≤ 60 by decide) ha rfl (handleAt_bytes h _) hgen hfree
  have hoffset : byteAt (h.bytes ++ [offset, release]) 3 = offset := rfl
  have hrange : within 0 64 offset.toNat = true ↔ offset.toNat ≤ 64 := by simp [within]
  refine ⟨fun ho => run (refuse .badField) ?_, fun ho hs => run (refuse .wrongState) ?_, fun r ho hs hr => ?_⟩
  · rw [fetchResult, hoffset, if_neg fun e => Nat.not_lt.mpr (hrange.mp e) ho]
  · rw [fetchResult, hoffset, if_pos (hrange.mpr ho), found_slot]
    split
    · next hd _ => exact absurd hd hs
    · rfl
  · have key : fetchResult (h.bytes ++ [offset, release]) h.slot (found o s.dev) =
        (⟨.ok, r.bytesFrom offset.toNat⟩, if release != 0#8 then freeSlot h.slot (found o s.dev) else found o s.dev) := by
      rw [fetchResult, hoffset, if_pos (hrange.mpr ho), found_slot, hs, hr]
      rfl
    exact ⟨fun hz => run ⟨.ok, r.bytesFrom offset.toNat⟩ (key.trans (by rw [if_neg (by simp [hz])])),
      fun hz => run ⟨.ok, r.bytesFrom offset.toNat⟩ (key.trans (by rw [if_pos (by simp [hz])]; rfl))⟩

end Sys2Proof.Machine
end

section
/-! PROOFS. The requests with a header: OPEN_CONVERSATION and RUN_CONVERSATION (R23, R24, R28, R32, R180, R181). -/

namespace Sys2Proof.Machine

variable {d : Device}

/-! ## The header read back from its bytes (10 R180, R181) -/

theorem modeOf_code (m : ReportMode) : modeOf m.code = some m := by cases m <;> rfl

theorem targetAt_bytes (x y : Byte) (t : Target) (rest : List Byte) : targetAt (targetBytes x y t ++ rest) = some t := by
  cases t with
  | directory i =>
    have hi : index 64 (byteAt (targetBytes x y (.directory i) ++ rest) 1) = some i := index_byte i (by decide)
    rw [targetAt, if_pos (show byteAt (targetBytes x y (.directory i) ++ rest) 0 = 0#8 from rfl), hi]
    rfl
  | raw seg a c =>
    have haddr : byteAt (targetBytes x y (.raw seg a c) ++ rest) 1 = a.setWidth 8 := rfl
    have hseg : index 4 (byteAt (targetBytes x y (.raw seg a c) ++ rest) 2) = some seg := index_byte seg (by decide)
    have hcheck : checkOf (byteAt (targetBytes x y (.raw seg a c) ++ rest) 3) = some c := checkOf_code c
    have hlt : (a.setWidth 8).toNat < 128 := by rw [BitVec.toNat_setWidth]; exact Nat.lt_of_le_of_lt (Nat.mod_le ..) a.isLt
    have hback : (a.setWidth 8).setWidth 7 = a := BitVec.eq_of_toNat_eq (by simp)
    have hkind : byteAt (targetBytes x y (.raw seg a c) ++ rest) 0 = 1#8 := rfl
    rw [targetAt, hkind, if_neg (by decide), if_pos rfl, hseg, hcheck, haddr]
    dsimp only
    rw [if_pos hlt, hback]

/-- What a header asks for, as the model keeps it. -/
def headerOf (t : Target) (c : Class) (m : ReportMode) (deadline : Half) (retry : Option (Byte × RetrySettings)) : Header :=
  ⟨t, c, m, if deadline = 0#16 then none else some deadline.toNat, (retry.map Prod.snd).getD .default⟩

section
variable {x y : Byte} {t : Target} {c : Class} {m : ReportMode} {deadline : Half} {retry : Option (Byte × RetrySettings)}

theorem headerLength_bytes (hretry : ∀ p, retry = some p → p.1 ≠ 0#8 ∧ p.2.inRange = true) (rest : List Byte) :
    headerLength (headerBytes x y t c m deadline retry ++ rest) = (headerBytes x y t c m deadline retry).length := by
  cases retry with
  | none => cases t <;> rfl
  | some p =>
    have hflag : flagAt (headerBytes x y t c m deadline (some p) ++ rest) 8 = true := by
      have : byteAt (headerBytes x y t c m deadline (some p) ++ rest) 8 = p.1 := by cases t <;> rfl
      simp [flagAt, this, (hretry p rfl).1]
    rw [headerLength, if_pos hflag]
    cases t <;> rfl

theorem headerAt_bytes (hretry : ∀ p, retry = some p → p.1 ≠ 0#8 ∧ p.2.inRange = true) (rest : List Byte) :
    headerAt (headerBytes x y t c m deadline retry ++ rest) = some (headerOf t c m deadline retry) := by
  have htarget : targetAt (headerBytes x y t c m deadline retry ++ rest) = some t := by
    cases retry <;> simp only [headerBytes, List.append_assoc, targetAt_bytes]
  have hcls : byteAt (headerBytes x y t c m deadline retry ++ rest) 4 = c.code := by cases t <;> cases retry <;> rfl
  have hmode : byteAt (headerBytes x y t c m deadline retry ++ rest) 5 = m.code := by cases t <;> cases retry <;> rfl
  have hdeadline : halfAt (headerBytes x y t c m deadline retry ++ rest) 6 = deadline := by
    cases t <;> cases retry <;> exact ofLe16_le16 deadline
  unfold headerAt
  rw [htarget, hcls, hmode, hdeadline, classOf_code, modeOf_code]
  dsimp only
  cases retry with
  | none =>
    rw [show flagAt (headerBytes x y t c m deadline none ++ rest) 8 = false by cases t <;> rfl]
    rfl
  | some p =>
    obtain ⟨hflag, hr⟩ := hretry p rfl
    obtain ⟨flag, r⟩ := p
    simp only [RetrySettings.inRange, Bool.and_eq_true, decide_eq_true_eq] at hr
    obtain ⟨⟨hretries, hgap⟩, hbudget⟩ := hr
    have h8 : flagAt (headerBytes x y t c m deadline (some (flag, r)) ++ rest) 8 = true := by
      rw [flagAt, show byteAt (headerBytes x y t c m deadline (some (flag, r)) ++ rest) 8 = flag by cases t <;> rfl]
      simpa using hflag
    have h9 : (byteAt (headerBytes x y t c m deadline (some (flag, r)) ++ rest) 9).toNat = r.retries := by
      rw [← byte_toNat (show r.retries < 256 by omega)]
      cases t <;> rfl
    have h10 : (byteAt (headerBytes x y t c m deadline (some (flag, r)) ++ rest) 10).toNat = r.gap := by
      rw [← byte_toNat_of_within hgap (by decide)]
      cases t <;> rfl
    have h11 : (byteAt (headerBytes x y t c m deadline (some (flag, r)) ++ rest) 11).toNat = r.budget := by
      rw [← byte_toNat (show r.budget < 256 by omega)]
      cases t <;> rfl
    rw [h8, h9, h10, h11, if_pos rfl, if_pos (by simp [hretries, hgap, hbudget])]
    rfl
end

theorem headerBytes_length_le (x y : Byte) (t : Target) (c : Class) (m : ReportMode) (deadline : Half)
    (retry : Option (Byte × RetrySettings)) : (headerBytes x y t c m deadline retry).length ≤ 12 := by
  cases retry <;> cases t <;> simp [headerBytes, targetBytes, le16]

/-! ## The slot and the target (R23, R28) -/

theorem hostSlot_none (h : 24 ≤ hostHeld d ∨ ∀ i, (d.slot i).state ≠ .free) : hostSlot d = none := by
  unfold hostSlot
  split
  · next hh => exact lowestFree_eq_none (h.resolve_left (Nat.not_le.mpr hh))
  · rfl

theorem hostSlot_isSome (h : ¬ (24 ≤ hostHeld d ∨ ∀ i, (d.slot i).state ≠ .free)) : ∃ i, hostSlot d = some i := by
  obtain ⟨hheld, hfree⟩ := not_or.mp h
  unfold hostSlot
  rw [if_pos (show hostHeld d < Config.hostSlots from Nat.not_le.mp hheld)]
  exact lowestFree_isSome hfree

theorem hostSlot_eq_some {i : SlotId} (hheld : hostHeld d < 24) (hi : (d.slot i).state = .free)
    (hlow : ∀ j, j < i → (d.slot j).state ≠ .free) : hostSlot d = some i := by
  unfold hostSlot
  rw [if_pos (show hostHeld d < Config.hostSlots from hheld), lowestFree_eq_some hi hlow]

theorem targetRefusal_vacant {j : TargetId} (h : (d.entry j).presence = .vacant) : targetRefusal (.directory j) d = some .unknownTarget :=
  if_pos h

theorem targetRefusal_withdrawing {j : TargetId} (h : (d.entry j).presence = .withdrawing) :
    targetRefusal (.directory j) d = some .targetGone := by
  rw [targetRefusal, if_neg (by simp [h]), if_pos h]

theorem targetRefusal_eq_none {t : Target}
    (h : ∀ j, t = .directory j → (d.entry j).presence ≠ .vacant ∧ (d.entry j).presence ≠ .withdrawing) : targetRefusal t d = none := by
  cases t with
  | raw => rfl
  | directory j =>
    obtain ⟨hv, hw⟩ := h j rfl
    rw [targetRefusal, if_neg hv, if_neg hw]

/-! ## OPEN_CONVERSATION (R28) -/

/-- Settles O31: the header is read back, and the checks of R28 follow in their order. -/
theorem openTakesTheLowestFreeSlot : Obligations.OpenTakesTheLowestFreeSlot := by
  intro s tag x y t cls m deadline retry o hretry body ha c full
  have hnil : headerBytes x y t cls m deadline retry ++ [] = body := List.append_nil _
  have hheader : headerAt body = some (headerOf t cls m deadline retry) := hnil ▸ headerAt_bytes hretry []
  have hlength : headerLength body = body.length := (congrArg headerLength hnil).symm.trans (headerLength_bytes hretry [])
  have hl : lengthAllowed .openConversation body = true := beq_iff_eq.mpr hlength.symm
  have hb : body.length ≤ 60 := Nat.le_trans (headerBytes_length_le ..) (by decide)
  have run : ∀ (r : Reply) {u : Device}, requestOpenConversation body (found o s.dev) = (r, u) →
      exec c s = replyTo s 0xB0#8 tag (r.status.code :: r.fields) u := fun r _ h =>
    request_reply .openConversation body r rfl rfl rfl hb ha hl h
  refine ⟨fun hf => run (refuse .poolFull) ?_, fun j hf ht hv => run (refuse .unknownTarget) ?_,
    fun j hf ht hw => run (refuse .targetGone) ?_, fun i hheld hi hlow ht => run ⟨.ok, (s.dev.handle i).bytes⟩ ?_⟩
  · rw [requestOpenConversation, hheader, hostSlot_none (d := found o s.dev) hf]
  · obtain ⟨i, hi⟩ := hostSlot_isSome (d := found o s.dev) hf
    simp only [requestOpenConversation, hheader, hi, headerOf, ht, targetRefusal_vacant (d := found o s.dev) hv]
  · obtain ⟨i, hi⟩ := hostSlot_isSome (d := found o s.dev) hf
    simp only [requestOpenConversation, hheader, hi, headerOf, ht, targetRefusal_withdrawing (d := found o s.dev) hw]
  · simp only [requestOpenConversation, hheader, hostSlot_eq_some (d := found o s.dev) hheld hi hlow, headerOf,
      targetRefusal_eq_none (d := found o s.dev) ht]
    rfl

/-! ## RUN_CONVERSATION (R32) -/

/-- A conversation placed in a slot is queued, whatever its target: its slot, its reference and its place in the list. -/
theorem queueConversation_placedOn (i : SlotId) (st : SlotState) (c : Conv) (d : Device) :
    queueConversation i (placeConversation i st c d) =
      (raiseTarget c.target (d.updSlot i fun x => ⟨x.gen, .queued, { c with assemblyTimer := none, deadlineTimer := c.deadline }⟩)).updSeg
        (targetSegment d c.target) (Segment.enqueue c.cls (d.handle i)) := by
  cases ht : c.target with
  | directory j =>
    rw [queueConversation_placed i st ht, ht]
    rfl
  | raw g a check =>
    have hplace : placeConversation i st c d = d.updSlot i fun x => { x with state := st, conv := c } := by rw [placeConversation, ht]; rfl
    have hhandle : (placeConversation i st c d).handle i = d.handle i := by rw [Device.handle, placeConversation_slot]; rfl
    rw [queueConversation_eq, hhandle, placeConversation_slot, hplace, updSlot_updSlot]
    dsimp only
    rw [ht]
    rfl

/-- Settles O34: header and steps are read back, and the checks of R32 follow in their order. -/
theorem runOpensFillsAndQueues : Obligations.RunOpensFillsAndQueues := by
  intro s tag x y t cls m deadline retry steps o hretry hsteps body hb ha c seg full
  have hheader : headerAt body = some (headerOf t cls m deadline retry) := headerAt_bytes hretry _
  have hdrop : body.drop (headerLength body) = steps.flatMap Step.bytes := by
    rw [show headerLength body = _ from headerLength_bytes hretry _]
    exact List.drop_left
  have hl : lengthAllowed .runConversation body = true := by
    show (decide (headerLength body ≤ body.length) && (recordsOf (body.drop (headerLength body))).isSome) = true
    rw [hdrop, recordsOf_bytes hsteps, Bool.and_true, decide_eq_true_iff, show headerLength body = _ from headerLength_bytes hretry _]
    exact List.length_append ▸ Nat.le_add_right ..
  have run : ∀ (r : Reply) {u : Device}, requestRunConversation body (found o s.dev) = (r, u) →
      exec c s = replyTo s 0xB3#8 tag (r.status.code :: r.fields) u := fun r _ h =>
    request_reply .runConversation body r rfl rfl rfl hb ha hl h
  have key : requestRunConversation body (found o s.dev) =
      if joinsAllowed steps then
        if withinLimits steps then
          if steps = [] then (refuse .empty, found o s.dev)
          else if lastJoined steps then (refuse .badField, found o s.dev)
          else runChecked (headerOf t cls m deadline retry) steps (found o s.dev)
        else (refuse .limit, found o s.dev)
      else (refuse .badField, found o s.dev) := by
    rw [requestRunConversation, hheader, hdrop, stepsOf_bytes hsteps]
  refine ⟨fun hj => run (refuse .badField) ?_, fun hj hw => run (refuse .limit) ?_, fun hnil => run (refuse .empty) ?_,
    fun l last hlist hj hw => ?_⟩
  · rw [key, if_neg (joinsAllowed_false hj)]
  · rw [key, if_pos ((joinsAllowed_iff _).mpr hj), if_neg (by simp [hw])]
  · rw [key, hnil]
    rfl
  · have passed : requestRunConversation body (found o s.dev) = if last.joined then (refuse .badField, found o s.dev)
        else runChecked (headerOf t cls m deadline retry) steps (found o s.dev) := by
      rw [key, if_pos ((joinsAllowed_iff _).mpr hj), if_pos hw, if_neg (by simp [hlist]), hlist, lastJoined_concat]
    have checked : last.joined = false → ∀ {a}, runChecked (headerOf t cls m deadline retry) steps (found o s.dev) = a →
        requestRunConversation body (found o s.dev) = a := fun hlast _ h => by rw [passed, if_neg (by simp [hlast]), h]
    have hseg : targetSegment (found o s.dev) t = seg := targetSegment_found o s.dev t
    refine ⟨fun hlast => run (refuse .badField) (passed.trans (if_pos hlast)),
      fun hlast hf => run (refuse .poolFull) (checked hlast ?_), fun j hlast hf ht hv => run (refuse .unknownTarget) (checked hlast ?_),
      fun j hlast hf ht hv => run (refuse .targetGone) (checked hlast ?_), fun i hlast hheld hi hlow ht =>
        ⟨fun hoff => run (refuse .segmentOff) (checked hlast ?_), fun hon => run ⟨.ok, (s.dev.handle i).bytes⟩ (checked hlast ?_)⟩⟩
    · rw [runChecked, hostSlot_none (d := found o s.dev) hf]
    · obtain ⟨i, hi⟩ := hostSlot_isSome (d := found o s.dev) hf
      simp only [runChecked, hi, headerOf, ht, targetRefusal_vacant (d := found o s.dev) hv]
    · obtain ⟨i, hi⟩ := hostSlot_isSome (d := found o s.dev) hf
      simp only [runChecked, hi, headerOf, ht, targetRefusal_withdrawing (d := found o s.dev) hv]
    · simp only [runChecked, hostSlot_eq_some (d := found o s.dev) hheld hi hlow, headerOf, targetRefusal_eq_none (d := found o s.dev) ht,
        hseg, found_seg, if_pos hoff]
    · simp only [runChecked, hostSlot_eq_some (d := found o s.dev) hheld hi hlow, headerOf, targetRefusal_eq_none (d := found o s.dev) ht,
        hseg, found_seg, if_neg hon, queueConversation_placedOn]
      rw [enqueue_eq]
      rfl

end Sys2Proof.Machine
end

section
/-! PROOFS. The end of a conversation: entering DONE, CANCEL_CONVERSATION, and the pool's timers (R30, R34, R36 to R40, R101,
R143 to R145). -/

namespace Sys2Proof.Machine

variable {d : Device}

/-! ## Entering DONE (R37 to R40) -/

section
variable {i : SlotId} {r : ConvResult}

/-- A conversation that has entered DONE and released its reference, before its report mode or its origin acts. -/
def releasedDone (i : SlotId) (r : ConvResult) (d : Device) : Device :=
  releaseTarget (d.slot i).conv.target (d.updSlot i fun x => Claims.heldDone x r)

theorem finish_notify (ho : (d.slot i).conv.origin = .host) (hm : (d.slot i).conv.mode = some .notify) : finish i r d =
    post (.completed (d.handle i) r.outcome r.completed (r.bytes.take 32) (decide (32 < r.bytes.length))) (releasedDone i r d) := by
  simp only [finish, ho, hm]
  rfl

theorem finish_quiet (ho : (d.slot i).conv.origin = .host) (hm : (d.slot i).conv.mode = some .quiet) :
    finish i r d = releasedDone i r d := by
  simp only [finish, ho, hm]
  rfl

theorem finish_fire (ho : (d.slot i).conv.origin = .host) (hm : (d.slot i).conv.mode = some .fire) : finish i r d =
    if r.outcome = .ok then freeSlot i (releasedDone i r d)
    else post (.failed (d.handle i) r.outcome (r.failing.getD 0)) (freeSlot i (releasedDone i r d)) := by
  simp only [finish, ho, hm]
  rfl

theorem finish_poll {bank : Bank} {k : PollId} (ho : (d.slot i).conv.origin = .poll bank k) : finish i r d =
    freeSlot i (takePollResult bank k (d.handle i) r (releasedDone i r d)) := by
  simp only [finish, ho]
  rfl
end

/-! ## The result of a poll conversation is taken (R143 to R145) -/

section
variable {bank : Bank} {k : PollId} {h : Handle} {r : ConvResult} {e : PollEntry}

theorem changed_iff {value : List Byte} : changed e value = true ↔
    ∀ old, e.lastValue = some old → masked value e.config.mask ≠ masked old e.config.mask := by
  unfold changed
  cases e.lastValue <;> simp

theorem takePollResult_foreign (he : d.poll bank k = some e) (ho : e.outstanding ≠ some h) : takePollResult bank k h r d = d := by
  simp only [takePollResult, he, if_neg ho]

theorem takePollResult_dropped (he : d.poll bank k = some e) (ho : e.outstanding = some h) (hb : d.schedule.active ≠ bank) :
    takePollResult bank k h r d = d.setPoll bank k (some { e with outstanding := none }) := by
  simp only [takePollResult, he, if_pos ho, if_neg hb]

theorem takePollResult_success (he : d.poll bank k = some e) (ho : e.outstanding = some h) (hb : d.schedule.active = bank)
    (hr : r.outcome = .ok) : takePollResult bank k h r d =
      applySuccess bank k { e with outstanding := none, overrun := 0 } r.bytes d := by
  simp only [takePollResult, he, if_pos ho, if_pos hb, if_pos hr]

theorem takePollResult_failure (he : d.poll bank k = some e) (ho : e.outstanding = some h) (hb : d.schedule.active = bank)
    (hr : r.outcome ≠ .ok) : takePollResult bank k h r d =
      applyFailure bank k { e with outstanding := none, overrun := 0 } r.outcome d := by
  simp only [takePollResult, he, if_pos ho, if_pos hb, if_neg hr]

theorem applySuccess_onChange {value : List Byte} (hp : e.config.policy = .onChange) : applySuccess bank k e value d =
    (if changed e value then post (.change bank k e.config.target (d.entry e.config.target).label e.lastValue value) d else d).setPoll
      bank k (some { e with lastValue := some value, failing := false }) := by
  simp only [applySuccess, hp]

theorem applySuccess_every {value : List Byte} (hp : e.config.policy = .every) : applySuccess bank k e value d =
    (post (.sample bank k value) d).setPoll bank k (some { e with lastValue := some value, failing := false }) := by
  simp only [applySuccess, hp]

theorem applySuccess_failOnly {value : List Byte} (hp : e.config.policy = .failOnly) : applySuccess bank k e value d =
    d.setPoll bank k (some { e with lastValue := some value, failing := false }) := by
  simp only [applySuccess, hp]
end

/-- Settles O39: the end by mode and origin, the scheduler's part by the entry, the selector and the outcome. -/
theorem enteringDoneActsByModeOrOrigin : Obligations.EnteringDoneActsByModeOrOrigin := by
  constructor
  · intro d i r x h released freed
    refine ⟨finish_notify, finish_quiet, fun ho hm hr => ?_, fun k ho hm hr hf => ?_, fun bank k => finish_poll⟩
    · rw [finish_fire ho hm, if_pos hr]
      rfl
    · rw [finish_fire ho hm, if_neg hr, hf]
      rfl
  · intro d bank k h r e he masked changed taken read
    have hchanged : Machine.changed taken r.bytes = true ↔ changed := changed_iff
    refine ⟨takePollResult_foreign he, takePollResult_dropped he, fun ho hb hr hp hc => ?_, fun ho hb hr hp => ?_, fun ho hb hr hp => ?_,
      fun ho hb hr hf => ?_, fun ho hb hr hf => ?_⟩
    · rw [takePollResult_success he ho hb hr, applySuccess_onChange (e := taken) hp, if_pos (hchanged.mpr hc)]
      rfl
    · rw [takePollResult_success he ho hb hr]
      obtain hp | ⟨hp, hc⟩ := hp
      · exact applySuccess_failOnly hp
      · rw [applySuccess_onChange (e := taken) hp, if_neg fun e => hc (hchanged.mp e)]
    · rw [takePollResult_success he ho hb hr, applySuccess_every (e := taken) hp]
      rfl
    · rw [takePollResult_failure he ho hb hr, applyFailure, if_pos hf]
      exact congrArg (fun e => d.setPoll bank k (some e)) (failing_same (e := taken) hf)
    · rw [takePollResult_failure he ho hb hr, applyFailure, if_neg (by simp [hf])]
      rfl

/-! ## A conversation that ends in its queue (R34, R36; 03 R46) -/

/-- What an end in the queue changes of the slots and the segments, and how the conversation has ended. -/
theorem endQueued_onlyHere (i : SlotId) (o : ConvOutcome) (d : Device) : Claims.onlyHere i (d.home i) d (endQueued i o d) := by
  refine ⟨fun j hj => (finish_oneSlot i _ _).other hj, fun g hg => ?_⟩
  rw [endQueued, finish_seg]
  exact updSeg_seg_other _ _ hg

theorem endQueued_lists (i : SlotId) (o : ConvOutcome) (d : Device) :
    ((endQueued i o d).seg (d.home i)).urgent = (d.seg (d.home i)).urgent.erase (d.handle i) ∧
    ((endQueued i o d).seg (d.home i)).normal = (d.seg (d.home i)).normal.erase (d.handle i) := by
  rw [endQueued, finish_seg, leaveQueue, Device.home, updSeg_seg_same]
  exact ⟨rfl, rfl⟩

theorem endQueued_endedWith (i : SlotId) (o : ConvOutcome) (d : Device) :
    Claims.endedWith (d.slot i) (.unstarted o) ((endQueued i o d).slot i) := finish_endedWith i _ (leaveQueue i d)

/-! ## A stop request during a wait (R101) -/

/-- A conversation that does not wait goes on. -/
theorem takeStopInWait_working {i : SlotId} (h : ¬ ∃ ctx, Claims.waiting d i ctx) : takeStopInWait i d = d := by
  unfold takeStopInWait
  dsimp only
  split
  · next hd ctx c hwork hstop => exact if_neg fun e => h ⟨ctx, hd, hwork, e⟩
  · rfl

/-- A conversation that waits ends with the cause of its stop request, and a selection follows. -/
theorem takeStopInWait_waiting {i : SlotId} {ctx : Context} {c : StopCause} (h : Claims.waiting d i ctx)
    (hc : (d.slot i).conv.stop = some c) : ∃ hd : Handle, hd.slot = i ∧
      takeStopInWait i d = makeSelection (d.home i) (endStopped (d.home i) hd ctx c d) := by
  obtain ⟨hd, hwork, hi, hwaits⟩ := h
  refine ⟨hd, hi, ?_⟩
  simp only [takeStopInWait, hwork, hc]
  exact if_pos ⟨hi, hwaits⟩

section
variable {i : SlotId} {f : Slot → Slot}

/-- A change of the stop request and the timers alone, which the end of the conversation wipes out. -/
def StopOnly (f : Slot → Slot) : Prop := ∀ x r, Claims.heldDone (f x) r = Claims.heldDone x r

theorem StopOnly.target (hf : StopOnly f) (x : Slot) : (f x).conv.target = x.conv.target :=
  congrArg (fun y => y.conv.target) (hf x (.unstarted .ok))

theorem StopOnly.endedWith (hf : StopOnly f) {x y : Slot} {r : ConvResult} (h : Claims.endedWith (f x) r y) : Claims.endedWith x r y := by
  have hgen : (f x).gen = x.gen := (congrArg Slot.gen (hf x r) :)
  have horigin : (f x).conv.origin = x.conv.origin := congrArg (fun y => y.conv.origin) (hf x r)
  have hmode : (f x).conv.mode = x.conv.mode := congrArg (fun y => y.conv.mode) (hf x r)
  unfold Claims.endedWith at h
  rwa [hf, hgen, horigin, hmode] at h

theorem StopOnly.home (hf : StopOnly f) (d : Device) : (d.updSlot i f).home i = d.home i := by
  rw [Device.home, updSlot_slot_same, hf.target, Device.home]
  cases (d.slot i).conv.target <;> rfl

theorem StopOnly.waiting_iff (hf : StopOnly f) {ctx : Context} : Claims.waiting (d.updSlot i f) i ctx ↔ Claims.waiting d i ctx := by
  have hhome := hf.home (i := i) d
  unfold Device.home at hhome
  unfold Claims.waiting
  rw [hhome]
  rfl

theorem setStop_stopOnly (c : StopCause) : StopOnly fun x => { x with conv := { x.conv with stop := x.conv.stop.or (some c) } } :=
  fun _ _ => rfl

theorem or_some_eq {α : Type} (a : Option α) (b : α) : a.or (some b) = some (a.getD b) := by cases a <;> rfl

/-- The device once a waiting conversation has been ended by the stop request that was set on it. -/
structure StoppedInWait (i : SlotId) (ctx : Context) (c : StopCause) (d t : Device) : Prop where
  here : Claims.onlyHere i (d.home i) d t
  seg : t.seg (d.home i) = { d.seg (d.home i) with work := .nothing, state := .idle }
  ended : Claims.endedWith (d.slot i) ⟨c.outcome, ctx.completed, some ctx.completed, ctx.readData, ctx.lastValue⟩ (t.slot i)

theorem takeStopInWait_stopped (hf : StopOnly f) {ctx : Context} {c : StopCause} (hc : (f (d.slot i)).conv.stop = some c)
    (h : Claims.waiting d i ctx) :
    ∃ t, takeStopInWait i (d.updSlot i f) = makeSelection (d.home i) t ∧ StoppedInWait i ctx c d t := by
  obtain ⟨hd, rfl, htaken⟩ := takeStopInWait_waiting (hf.waiting_iff.mpr h) (by rw [updSlot_slot_same, hc])
  rw [hf.home] at htaken
  refine ⟨_, htaken, ⟨fun j hj => ?_, fun g hg => ?_⟩, ?_, ?_⟩
  · rw [endStopped_slot_other _ _ _ _ _ (Ne.symm hj), updSlot_slot, if_neg (Ne.symm hj)]
  · exact (endStopped_move ..).other g hg
  · rw [endStopped, endConversation, updSeg_seg_same, finish_seg]
    rfl
  · have key := endStopped_endedWith (d.home hd.slot) hd ctx c (d.updSlot hd.slot f)
    rw [updSlot_slot_same] at key
    exact hf.endedWith key
end

/-! ## CANCEL_CONVERSATION (R36) -/

theorem waiting_found (o : Outbound) (d : Device) (i : SlotId) (ctx : Context) :
    Claims.waiting (found o d) i ctx ↔ Claims.waiting d i ctx := by
  unfold Claims.waiting
  rw [targetSegment_found]
  rfl

theorem found_home (o : Outbound) (d : Device) (i : SlotId) : (found o d).home i = targetSegment d (d.slot i).conv.target :=
  targetSegment_found ..

/-- Settles O35: by the slot's state; in RUNNING, by whether the engine waits. -/
theorem cancelActsByTheSlotState : Obligations.CancelActsByTheSlotState := by
  intro s tag h o ha hgen c x seg
  have run : ∀ (r : Reply) {t : Device}, x.state ≠ .free → cancelConversation h.slot (found o s.dev) = (r, t) →
      exec c s = replyTo s 0xB4#8 tag (r.status.code :: r.fields) t := fun r _ hfree =>
    conversation_reply .cancelConversation r rfl rfl rfl (fun _ => rfl) (show 3 ≤ 60 by decide) ha rfl (handleAt_handle h) hgen hfree
  have hhome : (found o s.dev).home h.slot = seg := found_home ..
  have hhandle : (found o s.dev).handle h.slot = h := by rw [Device.handle, found_slot, hgen]
  have running : x.state = .running →
      cancelConversation h.slot (found o s.dev) = (⟨.pending, []⟩, takeStopInWait h.slot (setStop h.slot .cancelled (found o s.dev))) :=
    fun hs => by
      have hs : ((found o s.dev).slot h.slot).state = .running := hs
      simp only [cancelConversation, hs]
  refine ⟨fun hs => run ⟨.ok, []⟩ (by simp [hs]) ?_,
    fun hs => ⟨endQueued h.slot .cancelled (found o s.dev), run ⟨.ok, []⟩ (by simp [hs]) ?_, ?_⟩,
    fun hs hw => run ⟨.pending, []⟩ (by simp [hs]) ?_, fun ctx hs hw => ?_, fun hs => run (refuse .alreadyDone) (by simp [hs]) ?_⟩
  · have hs : ((found o s.dev).slot h.slot).state = .assembling := hs
    simp only [cancelConversation, hs]
    rfl
  · have hs : ((found o s.dev).slot h.slot).state = .queued := hs
    simp only [cancelConversation, hs]
  · obtain ⟨urgent, normal⟩ := endQueued_lists h.slot .cancelled (found o s.dev)
    have here := endQueued_onlyHere h.slot .cancelled (found o s.dev)
    rw [hhome, hhandle] at urgent normal
    rw [hhome] at here
    exact ⟨here, urgent, normal, endQueued_endedWith h.slot .cancelled (found o s.dev)⟩
  · rw [running hs, setStop, takeStopInWait_working fun ⟨ctx, hctx⟩ =>
      hw ⟨ctx, (waiting_found o s.dev _ _).mp ((setStop_stopOnly .cancelled).waiting_iff.mp hctx)⟩]
  · obtain ⟨t, htaken, ⟨here, hseg, ended⟩⟩ := takeStopInWait_stopped (setStop_stopOnly .cancelled) (or_some_eq _ _)
      ((waiting_found o s.dev _ _).mpr hw)
    rw [hhome] at htaken here hseg
    exact ⟨t, run ⟨.pending, []⟩ (by simp [hs]) (by rw [running hs, setStop, htaken]), here, hseg, ended⟩
  · have hs : ((found o s.dev).slot h.slot).state = .done := hs
    simp only [cancelConversation, hs]

/-! ## The pool's timers (R30, R34) -/

theorem assemblyExpires_stopped {i : SlotId} (h : (d.slot i).conv.assemblyTimer = none) : assemblyExpires i d = d := by
  rw [assemblyExpires, h]
  rfl

theorem assemblyExpires_running {i : SlotId} {n : Nat} (h : (d.slot i).conv.assemblyTimer = some n) :
    assemblyExpires i d = post (.assemblyExpired (d.handle i)) (releaseTarget (d.slot i).conv.target (freeSlot i d)) := by
  rw [assemblyExpires, h]
  rfl

theorem deadlineExpires_stopped {i : SlotId} (h : (d.slot i).conv.deadlineTimer = none) : deadlineExpires i d = d := by
  rw [deadlineExpires, h]
  rfl

theorem deadlineExpires_queued {i : SlotId} {n : Nat} (h : (d.slot i).conv.deadlineTimer = some n) (hs : (d.slot i).state = .queued) :
    deadlineExpires i d = endQueued i .expired d := by
  rw [deadlineExpires, h, hs]
  rfl

/-- What the expiry of its deadline makes of the record of a RUNNING conversation. -/
def Slot.expired (x : Slot) : Slot :=
  { x with conv := { x.conv with deadlineTimer := none, stop := x.conv.stop.or (some .expired) } }

theorem expired_stopOnly : StopOnly Slot.expired := fun _ _ => rfl

theorem deadlineExpires_running {i : SlotId} {n : Nat} (h : (d.slot i).conv.deadlineTimer = some n) (hs : (d.slot i).state = .running) :
    deadlineExpires i d = takeStopInWait i (d.updSlot i Slot.expired) := by
  rw [deadlineExpires, h, hs, setStop, updSlot_updSlot]
  rfl

/-- Settles O38: each timer by whether it runs, the deadline timer then by the slot's state. -/
theorem poolTimersExpire : Obligations.PoolTimersExpire := by
  intro s i x seg
  have assembly : ∀ {t : Device}, assemblyExpires i s.dev = t → exec (.assemblyExpiry i) s = .next { s with dev := t } :=
    fun h => h ▸ exec_event rfl s
  have deadline : ∀ {t : Device}, deadlineExpires i s.dev = t → exec (.deadlineExpiry i) s = .next { s with dev := t } :=
    fun h => h ▸ exec_event rfl s
  refine ⟨fun h => assembly (assemblyExpires_stopped h), fun n h => assembly (assemblyExpires_running h),
    fun h => deadline (deadlineExpires_stopped h), fun n h hs => ?_, fun n h hs hw => deadline ?_, fun n ctx h hs hw => ?_⟩
  · obtain ⟨urgent, normal⟩ := endQueued_lists i .expired s.dev
    exact ⟨_, deadline (deadlineExpires_queued h hs), endQueued_onlyHere i .expired s.dev, urgent, normal,
      endQueued_endedWith i .expired s.dev⟩
  · rw [deadlineExpires_running h hs, takeStopInWait_working fun ⟨ctx, hctx⟩ => hw ⟨ctx, expired_stopOnly.waiting_iff.mp hctx⟩]
    rfl
  · obtain ⟨t, htaken, ⟨here, hseg, ended⟩⟩ := takeStopInWait_stopped expired_stopOnly (or_some_eq _ _) hw
    exact ⟨t, deadline ((deadlineExpires_running h hs).trans htaken), here, hseg, ended⟩

end Sys2Proof.Machine
end

section
/-! PROOFS. The selection of a segment's next work, and the timed waits that a conversation leaves (R47 to R50, R64, R84, R85, R88, R89, R95,
R97, R119). -/

namespace Sys2Proof.Machine

variable {d : Device} {g : SegId} {h : Handle} {ctx : Context}

theorem exec_event_eq {c : Instr} {f : Device → Device} {s : State} {t : Device} (hc : eventAction c = some f) (ht : f s.dev = t) :
    exec c s = .next { s with dev := t } := ht ▸ exec_event hc s

/-! ## What begins next in a conversation (05 R84, R85, R87) -/

/-- The transaction that the next unit of a conversation begins with: on the wire at once if the bus is free (04 R64). -/
def Device.unitPhase (d : Device) (g : SegId) (h : Handle) : Phase :=
  .transaction false (targetPec d (d.conv h).target) (if (d.seg g).owner = .free then .start else .waitFree)

theorem enterWaitFree_begins (hs : (d.conv h).stop = none) :
    enterWaitFree g h ctx d = setContext g h { ctx with phase := d.unitPhase g h } d := by
  rw [enterWaitFree, hs]
  rfl

theorem enterWaitFree_stopped {c : StopCause} (hs : (d.conv h).stop = some c) : enterWaitFree g h ctx d = endStopped g h ctx c d := by
  rw [enterWaitFree, hs]

theorem enterStep_last (hx : (d.conv h).steps[ctx.current]? = none) : enterStep g h ctx d = endConversation g h ctx .ok none d := by
  rw [enterStep, hx]

theorem enterStep_pause {n : Nat} (hx : (d.conv h).steps[ctx.current]? = some (.pause n)) (hs : (d.conv h).stop = none) :
    enterStep g h ctx d = setContext g h { ctx with phase := .pause n } d := by
  simp only [enterStep, hx, hs]

/-- A step other than a PAUSE begins a unit (05 R85). -/
theorem enterStep_unit {x : Step} (hx : (d.conv h).steps[ctx.current]? = some x) (hp : ∀ n, x ≠ .pause n) :
    enterStep g h ctx d = enterWaitFree g h ctx.beginUnit d := by
  rw [enterStep, hx]
  cases x with
  | pause n => exact absurd rfl (hp n)
  | _ => rfl

/-- A stop request ends the conversation before any step, a PAUSE too (05 R99). -/
theorem enterStep_stopped {x : Step} {c : StopCause} (hx : (d.conv h).steps[ctx.current]? = some x) (hs : (d.conv h).stop = some c) :
    enterStep g h ctx d = endStopped g h ctx c d := by
  by_cases hp : ∃ n, x = .pause n
  · obtain ⟨n, rfl⟩ := hp
    simp only [enterStep, hx, hs]
  · rw [enterStep_unit hx fun n e => hp ⟨n, e⟩, enterWaitFree_stopped hs]
    rfl

/-! ## Selection (03 R47 to R50) -/

theorem makeSelection_working (hw : (d.seg g).work ≠ .nothing) : makeSelection g d = d := by
  unfold makeSelection
  split
  · next e => exact absurd e hw
  · rfl
  · rfl

theorem makeSelection_sweep (hw : (d.seg g).work = .nothing) (hs : (d.seg g).sweep = .pending) :
    makeSelection g d = startSweep g d := by
  rw [makeSelection, hw]
  exact if_pos hs

theorem makeSelection_conversation (hw : (d.seg g).work = .nothing) (hs : (d.seg g).sweep ≠ .pending) :
    makeSelection g d = startConversation g d := by
  rw [makeSelection, hw]
  exact if_neg hs

theorem makeSelection_setContext : makeSelection g (setContext g h ctx d) = setContext g h ctx d :=
  makeSelection_working (by simp [setContext])

theorem startSweep_not_due (hn : ¬ ((d.seg g).ready = true ∧ (d.seg g).sweep = .pending)) : startSweep g d = d := by
  unfold startSweep
  simp [hn]

theorem startSweep_due (hr : (d.seg g).ready = true) (hs : (d.seg g).sweep = .pending) :
    startSweep g d = d.updSeg g fun x => { x with state := .active, sweep := .running, work := .sweep .start } := by
  unfold startSweep
  simp [hr, hs]

theorem startConversation_not_due (hn : ¬ ((d.seg g).ready = true ∧ (d.seg g).sweep ≠ .pending)) : startConversation g d = d := by
  unfold startConversation
  simp [hn]

theorem startConversation_empty (hu : (d.seg g).urgent = []) (hn : (d.seg g).normal = []) : startConversation g d = d := by
  have hc : (d.seg g).choose = none := by rw [Segment.choose, hu, hn]
  unfold startConversation
  simp [hc]

/-- What the engine does once the first step of a conversation has begun on a free bus (03 R50, 05 R84). -/
def Step.opening (pec : Bool) : Step → Phase
  | .pause n => .pause n
  | _ => .transaction false pec .start

theorem opening_of_ne_pause {x : Step} (hp : ∀ n, x ≠ .pause n) (pec : Bool) : x.opening pec = .transaction false pec .start := by
  cases x with
  | pause n => exact absurd rfl (hp n)
  | _ => rfl

/-- The first step begins on a free bus. -/
theorem enterStep_initial {x : Step} (hs : (d.conv h).stop = none) (hx : (d.conv h).steps[0]? = some x) (ho : (d.seg g).owner = .free) :
    enterStep g h .initial d =
      setContext g h { Context.initial with phase := x.opening (targetPec d (d.conv h).target) } d := by
  by_cases hp : ∃ n, x = .pause n
  · obtain ⟨n, rfl⟩ := hp
    exact enterStep_pause hx hs
  · have hp : ∀ n, x ≠ .pause n := fun n e => hp ⟨n, e⟩
    rw [enterStep_unit hx hp, enterWaitFree_begins hs, opening_of_ne_pause hp, Device.unitPhase, if_pos ho]
    rfl

/-- The arbiter's choice is RUNNING with its first step begun, and has left its list. -/
theorem startConversation_begins {left : Segment} {x : Step} (hr : (d.seg g).ready = true) (hp : (d.seg g).sweep ≠ .pending)
    (hc : (d.seg g).choose = some (h, left)) (hs : (d.conv h).stop = none) (hx : (d.conv h).steps[0]? = some x) :
    startConversation g d = (d.updSlot h.slot fun y => { y with state := .running }).updSeg g fun _ =>
      { left with
        state := .active
        work := .conversation h { Context.initial with phase := x.opening (targetPec d (d.conv h).target) } } := by
  let e := (d.updSeg g fun _ => { left with state := .active }).updSlot h.slot fun y => { y with state := .running }
  have hconv : e.conv h = d.conv h := by simp [e, Device.conv]
  have howner : (e.seg g).owner = .free := by
    simp only [e, updSlot_seg_frame, updSeg_seg_same]
    exact (choose_eq_some hc).1.rest.2.2.1.trans (ready_iff.mp hr).2.2
  have hstart : startConversation g d = enterStep g h .initial e := by
    unfold startConversation
    simp only [hr, hc, Bool.true_and, bne_iff_ne, ne_eq, hp, not_false_eq_true, if_true]
    rfl
  rw [hstart, enterStep_initial (by rw [hconv, hs]) (by rw [hconv, hx]) howner, hconv, setContext, updSlot_updSeg, updSeg_updSeg]
  rfl

/-- Settles O44: a pending sweep is taken first, and else the head that the arbiter chooses by the lists and the streak. -/
theorem selectionFollowsTheArbiter : Obligations.SelectionFollowsTheArbiter := by
  intro s g x ready begun first
  have sweep : ∀ {t : Device}, startSweep g s.dev = t → exec (.sweepStart g) s = .next { s with dev := t } := exec_event_eq rfl
  have conversation : ∀ {t : Device}, startConversation g s.dev = t → exec (.conversationStart g) s = .next { s with dev := t } :=
    exec_event_eq rfl
  have hready : ready ↔ (s.dev.seg g).ready = true := ready_iff.symm
  have chosen : ∀ {h : Handle} {phase : Phase} {urgent normal : List Handle} {streak : Nat}, ready → x.sweep ≠ .pending →
      x.choose = some (h, { x with urgent := urgent, normal := normal, streak := streak }) → first h phase →
      exec (.conversationStart g) s = begun h phase urgent normal streak := by
    rintro h phase urgent normal streak hr hp hc ⟨hstop, step, hstep, hphase⟩
    have hphase : phase = step.opening (targetPec s.dev (s.dev.slot h.slot).conv.target) := by cases step <;> exact hphase
    refine conversation ((startConversation_begins (hready.mp hr) hp hc hstop hstep).trans (updSeg_congr ?_))
    rw [hphase]
    rfl
  refine ⟨makeSelection_working, fun hw hs => sweep (makeSelection_sweep hw hs).symm,
    fun hw hs => conversation (makeSelection_conversation hw hs).symm, fun hn => sweep (startSweep_not_due fun ⟨hr, hs⟩ => ?_),
    fun hr hs => sweep (startSweep_due (hready.mp hr) hs), fun hn => conversation ?_, fun u us phase hr hp hu hn => chosen hr hp ?_,
    fun u us phase hr hp hu hn hlt => chosen hr hp ?_, fun n ns phase hr hp hn hor => chosen hr hp ?_⟩
  · exact hn.elim (· (hready.mpr hr)) (· hs)
  · obtain hn | hn | ⟨hu, hn⟩ := hn
    · exact startConversation_not_due fun e => hn (hready.mpr e.1)
    · exact startConversation_not_due fun e => e.2 hn
    · exact startConversation_empty hu hn
  · rw [Segment.choose, hu, hn]
  · obtain ⟨n, ns, hn⟩ := List.exists_cons_of_ne_nil hn
    rw [Segment.choose, hu, hn]
    simp [Config.streakLimit, hlt, ← hn]
  · rw [Segment.choose, hn]
    obtain hu | hs := hor
    · rw [hu]
    · cases hu : x.urgent with
      | nil => simp [← hu]
      | cons u us => simp [Config.streakLimit, Nat.not_lt.mpr hs, ← hu]

/-! ## The timed waits (05 R88, R95, R97) -/

section
variable (hw : (d.seg g).work = .conversation h ctx)
include hw

theorem retryGapExpires_waiting {ms : Nat} (hp : ctx.phase = .retryGap ms) :
    retryGapExpires g d = makeSelection g (enterWaitFree g h ctx d) := by
  simp only [retryGapExpires, hw, hp]

theorem intervalExpires_waiting {ms : Nat} (hp : ctx.phase = .interval ms) :
    intervalExpires g d = makeSelection g (enterWaitFree g h ctx.beginUnit d) := by
  simp only [intervalExpires, hw, hp]

theorem pauseExpires_waiting {ms : Nat} (hp : ctx.phase = .pause ms) :
    pauseExpires g d = makeSelection g (enterStep g h (ctx.complete []) d) := by
  simp only [pauseExpires, hw, hp]

theorem retryGapExpires_other (hp : ∀ ms, ctx.phase ≠ .retryGap ms) : retryGapExpires g d = d := by
  simp only [retryGapExpires, hw]

theorem intervalExpires_other (hp : ∀ ms, ctx.phase ≠ .interval ms) : intervalExpires g d = d := by
  simp only [intervalExpires, hw]

theorem pauseExpires_other (hp : ∀ ms, ctx.phase ≠ .pause ms) : pauseExpires g d = d := by
  simp only [pauseExpires, hw]

end

/-- A PAUSE has no data: completing it leaves the read data as they are (05 R97). -/
theorem complete_nil (ctx : Context) : ctx.complete [] =
    { ctx with stepData := [], completed := ctx.completed + 1, current := ctx.current + 1, attempt := 0 } := by
  rw [Context.complete, List.append_nil]

/-- Settles O49: each wait by whether the engine is in it, then by the stop request and, after a PAUSE, by the next step. -/
theorem timedWaitsExpireIntoTheNextAction : Obligations.TimedWaitsExpireIntoTheNextAction := by
  intro s g h ctx hw x v pos begins running ended
  have retryGap : ∀ {t : Device}, retryGapExpires g s.dev = t → exec (.retryGapExpiry g) s = .next { s with dev := t } :=
    exec_event_eq rfl
  have interval : ∀ {t : Device}, intervalExpires g s.dev = t → exec (.intervalExpiry g) s = .next { s with dev := t } :=
    exec_event_eq rfl
  have pause : ∀ {t : Device}, pauseExpires g s.dev = t → exec (.pauseExpiry g) s = .next { s with dev := t } := exec_event_eq rfl
  refine ⟨fun ms hp => ⟨fun hs => retryGap ?_, fun c hs => retryGap ?_⟩, fun ms hp => ⟨fun hs => interval ?_, fun c hs => interval ?_⟩,
    fun ms hp => ?_, fun hp => retryGap (retryGapExpires_other hw hp), fun hp => interval (intervalExpires_other hw hp),
    fun hp => pause (pauseExpires_other hw hp)⟩
  · rw [retryGapExpires_waiting hw hp, enterWaitFree_begins hs, makeSelection_setContext]
    rfl
  · rw [retryGapExpires_waiting hw hp, enterWaitFree_stopped hs]
    rfl
  · rw [intervalExpires_waiting hw hp, enterWaitFree_begins hs, makeSelection_setContext]
    rfl
  · rw [intervalExpires_waiting hw hp, enterWaitFree_stopped hs]
    rfl
  · have key := pauseExpires_waiting hw hp
    rw [complete_nil] at key
    refine ⟨fun hx => pause (key.trans ?_), fun n hx hs => pause (key.trans ?_), fun y hx hy hs => pause (key.trans ?_),
      fun y c hx hs => pause (key.trans ?_)⟩
    · rw [enterStep_last hx]
      rfl
    · rw [enterStep_pause hx hs, makeSelection_setContext]
      rfl
    · rw [enterStep_unit hx hy, enterWaitFree_begins hs, makeSelection_setContext]
      rfl
    · rw [enterStep_stopped hx hs]
      rfl

end Sys2Proof.Machine
end

section
/-! PROOFS. The recovery sequence, the ownership of the bus, and the alert line (R47, R63, R64, R77, R78, R82, R109, R110, R118, R121). -/

namespace Sys2Proof.Machine

variable {d : Device} {g : SegId}

theorem updSeg_self {f : Segment → Segment} (h : f (d.seg g) = d.seg g) : d.updSeg g f = d :=
  Device.ext_parts (fun _ => rfl) (fun _ => rfl) (fun j => by
    rw [updSeg_seg]
    split
    · next e => rw [← e, h]
    · rfl) rfl rfl rfl rfl rfl

/-! ## The recovery sequence (04 R77) -/

/-- Pulses after which SDA still reads low are counted, as long as the ninth is not among them. -/
theorem recoveryPulses_low (i n : Nat) (rest : List PulseRead) (h : i + n < 9) :
    recoveryPulses i (List.replicate n .sdaLow ++ rest) = recoveryPulses (i + n) rest := by
  induction n generalizing i with
  | zero => rfl
  | succ n ih =>
    have hmore : ¬ i + 1 = Config.maxPulses := by
      have : Config.maxPulses = 9 := rfl
      omega
    rw [List.replicate_succ, List.cons_append, recoveryPulses, if_neg hmore, ih (i + 1) (by omega), Nat.add_right_comm, Nat.add_assoc]

/-- A sequence that goes on to its STOP succeeds when the STOP leaves both lines high; any other fails. -/
theorem recoveryEnds_pulses {l : List PulseRead} {n : Nat} {ok : Bool} (h : recoveryPulses 0 l = some (n, ok)) (stop : StopRead) :
    recoveryEnds ⟨false, l, stop⟩ = some (n, ok && decide (stop = .linesHigh)) := by
  cases ok <;> simp [recoveryEnds, h]

/-- The read that ends the sequence, after `n` pulses that leave SDA low. -/
theorem recoveryEnds_low {n : Nat} {r : PulseRead} {ok : Bool} (h : n < 9) (hr : recoveryPulses n [r] = some (n + 1, ok))
    (stop : StopRead) :
    recoveryEnds ⟨false, List.replicate n .sdaLow ++ [r], stop⟩ = some (n + 1, ok && decide (stop = .linesHigh)) :=
  recoveryEnds_pulses ((recoveryPulses_low 0 n [r] (by omega)).trans (by rw [Nat.zero_add, hr])) stop

/-! ## The end of a recovery (04 R78, R82; 06 R118) -/

theorem alrFell_eq (g : Segment) :
    g.alrFell = { g with sweep := if g.sweep = .idle ∧ g.config.sweepEnable = true then .pending else g.sweep } := by
  unfold Segment.alrFell
  split <;> rfl

/-- The segment once its recovery has succeeded: a low ALR is taken as a fall (06 R118). -/
def Segment.recovered (n : Nat) (x : Segment) : Segment :=
  { x with
    state := .idle
    fromBlocked := false
    pulses := n
    owner := .taken
    freeCount := true
    sweep := if x.alrLow = true ∧ x.config.sweepEnable = true ∧ x.sweep = .idle then .pending else x.sweep }

theorem recovers_eq (n : Nat) (d : Device) : recovers g n d =
    (if (d.seg g).fromBlocked then post (.segmentState g .recovered) d else d).updSeg g fun _ => (d.seg g).recovered n := by
  have hseg : (if (d.seg g).fromBlocked then post (.segmentState g .recovered) d else d).seg g = d.seg g := by split <;> rfl
  unfold recovers placeStop
  dsimp only
  generalize (if (d.seg g).fromBlocked then post (.segmentState g .recovered) d else d) = e at hseg ⊢
  rw [updSeg_updSeg]
  refine updSeg_congr ?_
  dsimp only
  rw [hseg, Segment.recovered]
  split
  · next hlow => simp only [alrFell_eq, hlow, true_and, and_comm]
  · next hlow => simp only [hlow, false_and, if_false, Bool.false_eq_true]

theorem recoverySucceeds_high {lines : RecoveryLines} {n : Nat} (hs : (d.seg g).state = .recovering)
    (he : recoveryEnds lines = some (n, true)) : recoverySucceeds g lines d = recovers g n d := by
  rw [recoverySucceeds, if_pos hs, he]

theorem recoveryFails_low {lines : RecoveryLines} {n : Nat} (hs : (d.seg g).state = .recovering)
    (he : recoveryEnds lines = some (n, false)) : recoveryFails g lines d = blocks g n d := by
  rw [recoveryFails, if_pos hs, he]

/-- Settles O51: the pulses by the number of those that leave SDA low, then what success and failure make of the segment. -/
theorem recoveryEndsIdleOrBlocked : Obligations.RecoveryEndsIdleOrBlocked := by
  refine ⟨fun stop => rfl, fun n stop h => recoveryEnds_low (ok := true) h rfl stop,
    fun n stop h => recoveryEnds_low (ok := false) h rfl stop, fun stop => rfl, ?_⟩
  intro s g lines n hs x told
  refine ⟨fun he => ⟨x.recovered n, exec_event_eq rfl ((recoverySucceeds_high hs he).trans (recovers_eq n s.dev)), rfl⟩, ?_⟩
  intro he fault
  refine exec_event_eq rfl ((recoveryFails_low hs he).trans ?_)
  unfold blocks enterFault
  rw [updSeg_updSeg]
  refine congrArg (post _) (updSeg_congr ?_)
  cases hf : (s.dev.seg g).fault with
  | none => simp only [fault, x, hf]
  | some f => simp only [fault, x, hf, satInc255]

/-! ## The bus becomes free (04 R63, R64) -/

/-- The engine's work once the bus is free: a transaction in WAIT_FREE starts, with its check mode read now (01 R7, 04 R64). -/
def Work.started (pec : Handle → Bool) : Work → Work
  | .nothing => .nothing
  | .conversation h ctx =>
    match ctx.phase with
    | .transaction r _ .waitFree => .conversation h { ctx with phase := .transaction r (pec h) .start }
    | _ => .conversation h ctx
  | .sweep .waitFree => .sweep .start
  | .sweep p => .sweep p

/-- The check mode that a transaction of a handle's conversation would read (01 R7). -/
def Device.pecOf (d : Device) (h : Handle) : Bool := targetPec d (d.conv h).target

theorem ReceptionOnly.pecOf {t : Device} (h : ReceptionOnly d t) : t.pecOf = d.pecOf := by
  funext hd
  unfold Device.pecOf Device.conv
  rw [h.slot]
  cases (d.slot hd.slot).conv.target with
  | raw => rfl
  | directory i => simp only [targetPec, h.entry]

theorem startWaiting_eq (g : SegId) (d : Device) : startWaiting g d = d.updSeg g fun x => { x with work := x.work.started d.pecOf } := by
  have idle : ∀ {w}, (d.seg g).work = w → w.started d.pecOf = w →
      d = d.updSeg g fun x => { x with work := x.work.started d.pecOf } := fun hw he =>
    (updSeg_self (by rw [hw, he, ← hw])).symm
  unfold startWaiting
  split
  · next h ctx hw =>
    split
    · next r p hp => exact updSeg_congr (by simp only [hw, Work.started, hp]; rfl)
    · next hp => exact idle hw (by simp only [Work.started])
  · next hw => exact updSeg_congr (by simp only [hw, Work.started])
  · next hc hsw =>
    refine idle rfl ?_
    cases hw : (d.seg g).work with
    | nothing => rfl
    | conversation h ctx => exact absurd hw (hc h ctx)
    | sweep p =>
      cases p
      case waitFree => exact absurd hw hsw
      all_goals rfl

theorem becomesFree_eq (g : SegId) (d : Device) : becomesFree g d = makeSelection g (d.updSeg g fun x =>
    { x with owner := .free, freeCount := false, work := x.work.started d.pecOf }) := by
  rw [becomesFree, startWaiting_eq, updSeg_updSeg]
  rfl

/-- Settles O52: each event by whether the segment follows the bus, the works of the statement being those of the engine. -/
theorem ownershipFollowsTheBus : Obligations.OwnershipFollowsTheBus := by
  intro s g x ended cut freed placed
  have hfreed : freed = Work.started s.dev.pecOf := by
    funext w
    cases w with
    | nothing => rfl
    | conversation h ctx => obtain ⟨_, _, phase, _⟩ := ctx; cases phase with
      | transaction r p pos => cases pos <;> rfl
      | _ => rfl
    | sweep p => cases p <;> rfl
  have hplaced : placed = Work.startSeen := by
    funext w
    cases w with
    | nothing => rfl
    | conversation h ctx => obtain ⟨_, _, phase, _⟩ := ctx; cases phase with
      | transaction r p pos => cases pos <;> rfl
      | _ => rfl
    | sweep p => cases p <;> rfl
  have off : ∀ {e : Bool} {t : Device}, e = false → (if e = true then t else s.dev) = s.dev := fun he => by simp [he]
  refine ⟨fun he => ⟨exec_event_eq rfl (off he), exec_event_eq rfl (off he), exec_event_eq rfl (off he)⟩,
    fun he => exec_event_eq rfl ((if_pos he).trans ?_), fun he => exec_event_eq rfl (if_pos he), fun he => exec_event_eq rfl (off he),
    fun he => exec_event_eq rfl ((if_pos he).trans ?_), fun he => exec_event_eq rfl ((if_pos he).trans ?_)⟩
  · rw [hplaced]
  · rw [becomesFree_eq, hfreed]
  · rw [becomesFree_eq, hfreed, (cutReception_receptionOnly g s.dev).pecOf]

/-! ## The alert line (06 R118, R121) -/

section
variable {f f' : Segment → Segment} (hf : f (d.seg g) = f' (d.seg g))
include hf

/-- A change that leaves a sweep newly pending makes a selection (03 R47). -/
theorem mayArm_armed (h : (d.seg g).sweep ≠ .pending) (h' : (f' (d.seg g)).sweep = .pending) :
    mayArm g f d = makeSelection g (d.updSeg g f') :=
  (if_pos ⟨h, by rw [updSeg_seg_same, hf, h']⟩).trans (congrArg _ (updSeg_congr hf))

/-- A change that leaves the sweep as it is, or not pending, makes none. -/
theorem mayArm_unarmed (h : (f' (d.seg g)).sweep = (d.seg g).sweep ∨ (f' (d.seg g)).sweep ≠ .pending) :
    mayArm g f d = d.updSeg g f' := by
  have hn : ¬ ((d.seg g).sweep ≠ .pending ∧ ((d.updSeg g f).seg g).sweep = .pending) := by
    rw [updSeg_seg_same, hf]
    rintro ⟨h1, h2⟩
    exact h.elim (fun e => h1 (e ▸ h2)) fun e => e h2
  exact (if_neg hn).trans (updSeg_congr hf)

end

/-- Settles O55: each row by the state of the segment and of its sweep. -/
theorem alertLineArmsAndDisarmsSweeps : Obligations.AlertLineArmsAndDisarmsSweeps := by
  intro s g x becomes armed
  have hidle : x.sweep = .idle → x.sweep ≠ .pending := fun hi => by rw [hi]; decide
  have hholdoff : x.sweep = .holdoff → x.sweep ≠ .pending := fun hh => by rw [hh]; decide
  refine ⟨fun hs hi he => exec_event_eq rfl (mayArm_armed ((if_neg hs).trans (if_pos ⟨hi, he⟩)) (hidle hi) rfl),
    fun hn => exec_event_eq rfl (mayArm_unarmed ?_ (.inl rfl)), fun hs hh => exec_event_eq rfl (updSeg_congr (if_pos ⟨hs, hh⟩)),
    fun hn => exec_event_eq rfl (updSeg_congr (if_neg ?_)),
    fun hh hl => exec_event_eq rfl (mayArm_armed ?_ (hholdoff hh) rfl),
    fun hh hl => exec_event_eq rfl (mayArm_unarmed ?_ (.inr nofun)),
    fun hh => exec_event_eq rfl ((mayArm_unarmed (f' := id) (if_neg hh) (.inl rfl)).trans (updSeg_self rfl))⟩
  · obtain hoff | hrest := Classical.em (x.state = .off)
    · exact if_pos hoff
    · refine (if_neg hrest).trans (if_neg fun ⟨hi, he⟩ => ?_)
      exact hn.elim hrest fun h => h.elim (· hi) fun h => absurd (h.symm.trans he) (by decide)
  · rintro ⟨hs, hh⟩
    exact hn.elim hs fun ⟨h1, h2⟩ => hh.elim h1 h2
  · have hl : (s.dev.seg g).alrLow = true := hl
    exact (if_pos hh).trans ((if_pos hl).trans (by rw [hl]))
  · have hl : (s.dev.seg g).alrLow = false := hl
    exact (if_pos hh).trans ((if_neg (Bool.eq_false_iff.mp hl)).trans (by rw [Segment.disarm, hl]))

end Sys2Proof.Machine
end

section
/-! PROOFS. HOLD_SEGMENT, RELEASE_SEGMENT and FLUSH_SEGMENT (R47, R53 to R55). -/

namespace Sys2Proof.Machine

variable {d t : Device} {g : SegId}

/-! ## The request and its segment -/

theorem onSegment_index (g : SegId) (rest : List Byte) (f : SegId → Device → Reply × Device) (d : Device) :
    onSegment (byte g.val :: rest) f d = f g d := by
  rw [onSegment, show index 4 (byteAt (byte g.val :: rest) 0) = some g from index_byte g (by decide)]

/-- The answer of a request whose body is a segment's number alone. -/
theorem segment_reply {c : Instr} {tag kind : Byte} {s : State} {o : Outbound} {u : Device} {k : RequestKind} (g : SegId) (r : Reply)
    (hc : requestOf c = some (k, tag, [byte g.val])) (hn : noteOf c = none) (hk : k.code + 0x80#8 = kind) (ha : accepts s.dev 1 o = true)
    (hl : lengthAllowed k [byte g.val] = true) (hr : owner k [byte g.val] (found o s.dev) = (r, u)) :
    exec c s = replyTo s kind tag (r.status.code :: r.fields) u :=
  request_reply k _ r hc hn hk (by simp) ha hl hr

theorem requestHoldSegment_index (g : SegId) (d : Device) : requestHoldSegment [byte g.val] d =
    (⟨.ok, runningBytes (d.seg g).work⟩, d.updSeg g fun x => { x with held := true }) := onSegment_index ..

theorem requestReleaseSegment_held (h : (d.seg g).held = true) : requestReleaseSegment [byte g.val] d =
    (⟨.ok, []⟩, makeSelection g (d.updSeg g fun x => { x with held := false })) :=
  (onSegment_index ..).trans (congrArg _ (if_pos h))

theorem requestReleaseSegment_clear (h : (d.seg g).held = false) : requestReleaseSegment [byte g.val] d = (⟨.ok, []⟩, d) :=
  (onSegment_index ..).trans (congrArg _ (if_neg (Bool.eq_false_iff.mp h)))

/-! ## FLUSH_SEGMENT (03 R55) -/

/-- One conversation that waits on the segment leaves its list and ends CANCELLED. -/
def cancelListed (g : SegId) (d : Device) (h : Handle) : Device :=
  finish h.slot (.unstarted .cancelled) (d.updSeg g (Segment.dequeue h))

theorem cancelListed_seg (g : SegId) (d : Device) (h : Handle) (j : SegId) :
    (cancelListed g d h).seg j = (d.updSeg g (Segment.dequeue h)).seg j := finish_seg ..

theorem cancelListed_slot_other (g : SegId) (d : Device) {h : Handle} {k : SlotId} (hk : h.slot ≠ k) :
    (cancelListed g d h).slot k = d.slot k := (finish_oneSlot ..).other (Ne.symm hk)

theorem cancelListed_endedWith (g : SegId) (d : Device) (h : Handle) :
    Claims.endedWith (d.slot h.slot) (.unstarted .cancelled) ((cancelListed g d h).slot h.slot) := by
  have key := finish_endedWith h.slot (.unstarted .cancelled) (d.updSeg g (Segment.dequeue h))
  rwa [updSeg_slot_frame] at key

/-- What ending the conversations of some handles, one after the other, does to the segments and the slots. -/
structure Cancelled (g : SegId) (l : List Handle) (d t : Device) : Prop where
  other : ∀ j, j ≠ g → t.seg j = d.seg j
  lists : ListsOnly (d.seg g) (t.seg g)
  kept : ∀ k, (∀ h ∈ l, h.slot ≠ k) → t.slot k = d.slot k
  held : ∀ h ∈ l, (d.slot h.slot).conv.origin = .host → (d.slot h.slot).conv.mode ≠ some .fire →
    t.slot h.slot = Claims.heldDone (d.slot h.slot) (.unstarted .cancelled)
  ended : (l.map Handle.slot).Nodup → ∀ h ∈ l, Claims.endedWith (d.slot h.slot) (.unstarted .cancelled) (t.slot h.slot)

/-- One more conversation, ended before the others. A slot that holds its result takes it again unchanged, should its handle recur. -/
theorem Cancelled.cons {h : Handle} {l : List Handle} (ih : Cancelled g l (cancelListed g d h) t) : Cancelled g (h :: l) d t where
  other j hj := by rw [ih.other j hj, cancelListed_seg, updSeg_seg_other _ _ hj]
  lists := .trans (by rw [cancelListed_seg, updSeg_seg_same]; rfl) ih.lists
  kept k hk := by
    obtain ⟨hh, hl⟩ := List.forall_mem_cons.mp hk
    rw [ih.kept k hl, cancelListed_slot_other g d hh]
  held x hx ho hm := by
    by_cases hslot : h.slot = x.slot
    · have hdone : (cancelListed g d h).slot x.slot = Claims.heldDone (d.slot x.slot) (.unstarted .cancelled) := by
        rw [← hslot] at ho hm ⊢
        exact (cancelListed_endedWith g d h).1 ho hm
      by_cases hagain : ∃ y ∈ l, y.slot = x.slot
      · obtain ⟨y, hy, hyx⟩ := hagain
        have hy := ih.held y hy
        rw [hyx, hdone] at hy
        exact hy ho hm
      · rw [ih.kept x.slot fun y hy e => hagain ⟨y, hy, e⟩, hdone]
    · have hxl : x ∈ l := (List.mem_cons.mp hx).resolve_left fun e => hslot (by rw [e])
      have hx := ih.held x hxl
      rw [cancelListed_slot_other g d hslot] at hx
      exact hx ho hm
  ended hnodup x hx := by
    obtain ⟨hnot, hnodup⟩ := List.nodup_cons.mp hnodup
    have hne : ∀ y ∈ l, y.slot ≠ h.slot := fun y hy e => hnot (e ▸ List.mem_map_of_mem hy)
    obtain rfl | hxl := List.mem_cons.mp hx
    · rw [ih.kept _ hne]
      exact cancelListed_endedWith g d x
    · have hx := ih.ended hnodup x hxl
      rwa [cancelListed_slot_other g d (Ne.symm (hne x hxl))] at hx

theorem cancelListed_foldl (g : SegId) (l : List Handle) (d : Device) : Cancelled g l d (l.foldl (cancelListed g) d) := by
  induction l generalizing d with
  | nil => exact ⟨fun _ _ => rfl, .refl _, fun _ _ => rfl, fun _ h => absurd h List.not_mem_nil, fun _ _ h => absurd h List.not_mem_nil⟩
  | cons h l ih => exact (ih _).cons

/-- FLUSH_SEGMENT ends what both lists name, and leaves them empty. -/
theorem requestFlushSegment_index (g : SegId) (d : Device) : ∃ t, Cancelled g ((d.seg g).urgent ++ (d.seg g).normal) d t ∧
    requestFlushSegment [byte g.val] d = (⟨.ok, [byte ((d.seg g).urgent.length + (d.seg g).normal.length)]⟩,
      t.updSeg g fun x => { x with urgent := [], normal := [], streak := 0 }) := by
  refine ⟨_, cancelListed_foldl g _ d, ?_⟩
  rw [← List.length_append]
  exact onSegment_index ..

/-- Settles O42: HOLD and RELEASE by the flag, FLUSH by induction on the handles of both lists. -/
theorem holdReleaseAndFlush : Obligations.HoldReleaseAndFlush := by
  constructor
  · intro s tag g o ha running
    have hrunning : running = runningBytes (s.dev.seg g).work := by
      simp only [running]
      cases (s.dev.seg g).work <;> rfl
    refine ⟨?_, fun hh => ?_, fun hh => ?_⟩
    · rw [hrunning]
      exact segment_reply (k := .holdSegment) g ⟨.ok, _⟩ rfl rfl rfl ha rfl (requestHoldSegment_index g _)
    · exact segment_reply (k := .releaseSegment) g ⟨.ok, _⟩ rfl rfl rfl ha rfl (requestReleaseSegment_held hh)
    · exact segment_reply (k := .releaseSegment) g ⟨.ok, _⟩ rfl rfl rfl ha rfl (requestReleaseSegment_clear hh)
  · intro s tag g o ha x
    obtain ⟨t, ⟨other, lists, kept, held, ended⟩, hflush⟩ := requestFlushSegment_index g (found o s.dev)
    obtain ⟨hwork, hstate, -, hheld, -⟩ := lists.rest
    refine ⟨_, segment_reply (k := .flushSegment) g ⟨.ok, _⟩ rfl rfl rfl ha rfl hflush, ?_⟩
    simp only [updSeg_seg_same, updSeg_slot_frame]
    exact ⟨trivial, trivial, trivial, hwork, hstate, hheld, fun j hj => (updSeg_seg_other _ _ hj).trans (other j hj), held, ended, kept⟩

end Sys2Proof.Machine
end

section
/-! PROOFS. One transaction on the wire: what the engine drives, and what the target's answers make of it (R65 to R67, R69 to R71, R94). -/

namespace Sys2Proof.Machine

variable {a : Addr} {pec : Bool}

/-! ## The bytes received (04 R66; log 8) -/

theorem receivedBytes_of_le {n : Nat} {l : List Byte} (h : n ≤ l.length) : receivedBytes n l = l.take n :=
  List.take_append_of_le_length h

theorem receivedBytes_append {n : Nat} {l : List Byte} (h : l.length = n) (m : List Byte) : receivedBytes n (l ++ m) = l := by
  rw [receivedBytes_of_le (by simp [h]), ← h, List.take_left']
  rfl

theorem receivedAt_concat {n : Nat} {l : List Byte} (h : l.length = n) (b : Byte) : receivedAt n (l ++ [b]) = b := by
  simp [receivedAt, ← h]

/-! ## A write (04 R65, R70) -/

section
variable {t : Txn} (hr : t.reads = false)
include hr

theorem judge_write_acked (received : List Byte) : t.judge a none received = (.ok, []) := by
  simp [Txn.judge, hr]

theorem judge_write_nak {k : Nat} (h1 : 1 ≤ k) (h2 : k ≤ t.writes.length) (received : List Byte) :
    t.judge a (some k) received = (.nakData, []) := by
  simp [Txn.judge, hr, Nat.ne_of_gt h1, h2]

/-- A NAK of the check byte says that the target has found the span corrupted. -/
theorem judge_write_check_nak (hc : t.check = true) (received : List Byte) :
    t.judge a (some (t.writes.length + 1)) received = (.pecMismatch, []) := by
  simp [Txn.judge, hr, hc]

end

/-! ## A read (04 R66, R70) -/

/-- What the check byte makes of the data bytes read. -/
theorem judgeRead_checked (span bytes : List Byte) (b : Byte) :
    judgeRead true span bytes b = if b = crc8 (span ++ bytes) then (.ok, bytes) else (.pecMismatch, []) := by
  by_cases h : b = crc8 (span ++ bytes) <;> simp [judgeRead, h]

section
variable {t : Txn} {n : Nat} {received : List Byte} (hr : t.reads = true) (he : t.expect = .bytes n)
include hr he

theorem judge_read_plain (hc : t.check = false) (hn : n ≤ received.length) : t.judge a none received = (.ok, received.take n) := by
  simp [Txn.judge, hr, he, hc, judgeRead, receivedBytes_of_le hn]

theorem judge_read_checked (hc : t.check = true) (hn : received.length = n) (check : Byte) :
    t.judge a none (received ++ [check]) =
      if check = crc8 (t.spanBefore ++ [addressByte a true] ++ received) then (.ok, received) else (.pecMismatch, []) := by
  simp only [Txn.judge, hr, he, hc, receivedBytes_append hn, receivedAt_concat hn, judgeRead_checked, reduceCtorEq, if_false, if_true]

omit hr in
theorem acks_read (i : Nat) : t.acks received i = decide (i + 1 < n + if t.check then 1 else 0) := by
  simp only [Txn.acks, Txn.readsBytes, he]

end

/-! ## A counted block (04 R66) -/

section
variable {t : Txn} {count : Byte} {received : List Byte} (hr : t.reads = true) (he : t.expect = .block)
include hr he

theorem judge_block_bad (hn : count = 0#8 ∨ 32 < count.toNat) : t.judge a none (count :: received) = (.badCount, []) := by
  have hn : count.toNat = 0 ∨ 32 < count.toNat := hn.imp_left (congrArg BitVec.toNat)
  simp only [Txn.judge, hr, he, receivedAt, List.getD_cons_zero, if_pos hn, reduceCtorEq, if_false, if_true]

theorem judge_block_plain (hc : t.check = false) (h1 : 1 ≤ count.toNat) (h2 : count.toNat ≤ 32) (hn : count.toNat ≤ received.length) :
    t.judge a none (count :: received) = (.ok, received.take count.toNat) := by
  have hrange : ¬ (count.toNat = 0 ∨ 32 < count.toNat) := by omega
  simp [Txn.judge, hr, he, hc, receivedAt, hrange, judgeRead, receivedBytes_of_le hn]

theorem judge_block_checked (hc : t.check = true) (h1 : 1 ≤ count.toNat) (h2 : count.toNat ≤ 32) (hn : received.length = count.toNat)
    (check : Byte) : t.judge a none (count :: (received ++ [check])) =
      if check = crc8 (t.spanBefore ++ [addressByte a true, count] ++ received) then (.ok, received) else (.pecMismatch, []) := by
  have hrange : ¬ (count.toNat = 0 ∨ 32 < count.toNat) := by omega
  have hcheck : receivedAt (count.toNat + 1) (count :: (received ++ [check])) = check := receivedAt_concat (l := count :: received) (by simp [hn]) _
  have hcount : receivedAt 0 (count :: (received ++ [check])) = count := rfl
  simp only [Txn.judge, hr, he, hc, hcount, hcheck, if_neg hrange, List.drop_succ_cons, List.drop_zero, receivedBytes_append hn,
    judgeRead_checked, reduceCtorEq, if_false, if_true]

end

/-! ## The two halves of a step with a command byte (04 R67) -/

theorem txnOf_writeHalf {c : Byte} {step : Step} (h : (∃ n j, step = .read (some c) n j) ∨ (∃ j, step = .readBlock c j) ∨
    ∃ n mask want interval limit, step = .waitUntil c n mask want interval limit) : txnOf a false pec step = writeHalf c := by
  obtain ⟨n, j, rfl⟩ | ⟨j, rfl⟩ | ⟨n, mask, want, interval, limit, rfl⟩ := h <;> rfl

theorem wire_readHalf {c : Byte} {step : Step} (h : (∃ n j, step = .read (some c) n j) ∨ (∃ j, step = .readBlock c j) ∨
    ∃ n mask want interval limit, step = .waitUntil c n mask want interval limit) :
    (txnOf a true pec step).wire a = [addressByte a true] := by
  obtain ⟨n, j, rfl⟩ | ⟨j, rfl⟩ | ⟨n, mask, want, interval, limit, rfl⟩ := h <;> simp [txnOf, readHalfTxn, Txn.wire]

theorem txnOf_readHalf {c : Byte} {n : Nat} {step : Step} (h : (∃ j, step = .read (some c) n j) ∨
    ∃ mask want interval limit, step = .waitUntil c n mask want interval limit) :
    txnOf a true pec step = readHalfTxn a c (.bytes n) pec := by
  obtain ⟨j, rfl⟩ | ⟨mask, want, interval, limit, rfl⟩ := h <;> rfl

/-- Settles O45: each step's transaction by its direction and what it expects, the check byte by the span. -/
theorem transactionOutcomeFollowsTheAnswers : Obligations.TransactionOutcomeFollowsTheAnswers := by
  intro a pec received
  refine ⟨fun c bytes j tol readHalf => ?_, fun n j => ⟨?_, fun i => acks_read rfl i⟩, fun readHalf step => rfl, fun r j readHalf => ?_,
    fun c bytes j tol readHalf => ⟨judge_write_acked rfl _, fun k h1 h2 => judge_write_nak rfl h1 ?_ _, fun hp => ?_⟩,
    fun c step h => ?_, fun n j hn hp => judge_read_plain rfl rfl hp hn, fun n j check hn hp => ?_,
    fun c n step h => ?_, fun c count j hn => judge_block_bad rfl rfl hn,
    fun c count j h1 h2 hn hp => judge_block_plain rfl rfl hp h1 h2 hn, fun c count j check h1 h2 hn hp => ?_⟩
  · cases pec <;> rfl
  · simp [txnOf, Txn.wire]
  · cases r <;> rfl
  · show k ≤ (c.toList ++ bytes).length
    rwa [List.length_append]
  · rw [← List.length_append]
    exact judge_write_check_nak rfl hp _
  · rw [txnOf_writeHalf h]
    exact ⟨rfl, wire_readHalf h, judge_write_acked rfl _, judge_write_nak (t := writeHalf c) rfl (Nat.le_refl 1) (Nat.le_refl 1) _⟩
  · have key := judge_read_checked (a := a) (t := txnOf a false pec (.read none n j)) rfl rfl hp hn check
    exact ⟨fun h => key.trans (if_pos h), fun h => key.trans (if_neg h)⟩
  · rw [txnOf_readHalf h]
    refine ⟨fun i => acks_read rfl i, fun hn hp => judge_read_plain rfl rfl hp hn, fun check hn hp => ?_⟩
    have key := judge_read_checked (a := a) (t := readHalfTxn a c (.bytes n) pec) rfl rfl hp hn check
    exact ⟨fun h => key.trans (if_pos h), fun h => key.trans (if_neg h)⟩
  · intro span
    have key := judge_block_checked (a := a) (t := txnOf a true pec (.readBlock c j)) rfl rfl hp h1 h2 hn check
    exact ⟨fun h => key.trans (if_pos h), fun h => key.trans (if_neg h)⟩

end Sys2Proof.Machine
end

section
/-! PROOFS. What each class of outcome leads to (R64, R68, R87, R88, R92, R93, R95, R96, R100). -/

namespace Sys2Proof.Machine

variable {d : Device} {g : SegId} {h : Handle} {ctx : Context} {readHalf : Bool} {step : Step} {bytes : List Byte}

/-! ## The success class (05 R87, R95; 04 R68) -/

/-- A transaction that follows by repeated START: no free-time count runs (log 9). -/
theorem restart_eq (r : Bool) : (setTransaction g h ctx r .start d).updSeg g (fun x => { x with freeCount := false }) =
    d.updSeg g fun x =>
      { x with work := .conversation h { ctx with phase := .transaction r (targetPec d (d.conv h).target) .start }, freeCount := false } :=
  updSeg_updSeg ..

theorem afterSuccess_writeHalf (ht : step.twoHalves = true) : afterSuccess g h ctx false step bytes d =
    (setTransaction g h ctx true .start d).updSeg g fun x => { x with freeCount := false } :=
  if_pos (by rw [ht]; rfl)

/-- A step other than a WAIT_UNTIL is completed; if it is joined and a step follows, the next one begins by repeated START. -/
theorem afterSuccess_complete (ht : step.twoHalves = true → readHalf = true) (hw : ∀ c n m w i l, step ≠ .waitUntil c n m w i l) :
    afterSuccess g h ctx readHalf step bytes d =
      if step.joined = true ∧ ctx.current + 1 < (d.conv h).steps.length then
        (setTransaction g h (ctx.complete bytes) false .start d).updSeg g fun x => { x with freeCount := false }
      else enterStep g h (ctx.complete bytes) d := by
  have hhalf : (step.twoHalves && !readHalf) = false := by
    cases e : step.twoHalves
    · rfl
    · rw [ht e]
      rfl
  have hcurrent : (ctx.complete bytes).current = ctx.current + 1 := rfl
  unfold afterSuccess
  rw [hhalf]
  cases step with
  | waitUntil c n m w i l => exact absurd rfl (hw c n m w i l)
  | _ => simp only [hcurrent, Bool.and_eq_true, decide_eq_true_eq, Bool.false_eq_true, if_false]

/-- A WAIT_UNTIL has read its value: one attempt more, and the value is the last one. -/
def Context.compared (ctx : Context) (bytes : List Byte) : Context :=
  { ctx with attempt := ctx.attempt + 1, lastValue := some bytes, stepData := [] }

theorem afterSuccess_waitUntil (c : Byte) (n : Nat) (mask want : List Byte) (interval limit : Nat) :
    afterSuccess g h ctx true (.waitUntil c n mask want interval limit) bytes d =
      if masked bytes mask = masked want mask then enterStep g h ((ctx.compared bytes).complete []) d
      else if limit ≤ ctx.attempt + 1 then endFailed g h (ctx.compared bytes) .conditionTimeout d
      else
        match (d.conv h).stop with
        | some c => endStopped g h (ctx.compared bytes) c d
        | none => setContext g h { ctx.compared bytes with phase := .interval interval } d := rfl

/-! ## The retryable class (05 R88, R100) -/

theorem afterRetryable_again (o : ConvOutcome) (hs : (d.conv h).stop = none) (hr : ctx.retryCount < (d.conv h).retry.retries) :
    afterRetryable g h ctx o d =
      setContext g h { ctx.rollback with retryCount := ctx.retryCount + 1, phase := .retryGap (d.conv h).retry.gap } d :=
  if_pos ⟨hs, hr⟩

theorem afterRetryable_final (o : ConvOutcome) (hn : (d.conv h).stop ≠ none ∨ (d.conv h).retry.retries ≤ ctx.retryCount) :
    afterRetryable g h ctx o d = endFailed g h { ctx with stepData := [] } o d :=
  if_neg fun ⟨hs, hr⟩ => hn.elim (· hs) (Nat.not_le.mpr hr)

/-! ## A data NAK (05 R93) -/

theorem tolerates_iff : step.tolerates = true ↔ ∃ c data j, step = .write c data j true := by
  cases step <;> simp [Step.tolerates]

theorem classify_nakData_tolerated (ht : step.tolerates = true) :
    classify g h ctx readHalf step .nakData bytes d = classify g h ctx readHalf step .ok [] d := if_pos ht

theorem classify_nakData_final (ht : step.tolerates = false) :
    classify g h ctx readHalf step .nakData bytes d = endFailed g h { ctx with stepData := [] } .nakData d :=
  if_neg (Bool.eq_false_iff.mp ht)

/-- Settles O47: each class by its function of the engine, the step that follows by what begins next. -/
theorem outcomeClassDecidesWhatFollows : Obligations.OutcomeClassDecidesWhatFollows := by
  intro d g h ctx step bytes v pec withContext restarted ended begun follows done rolledBack waits
  have hfollows : ∀ c, follows (enterStep g h c d) c := fun c =>
    ⟨enterStep_last, fun n hx hs => enterStep_pause hx hs, fun x hx hp hs => (enterStep_unit hx hp).trans (enterWaitFree_begins hs),
      fun x cause hx hs => enterStep_stopped hx hs⟩
  refine ⟨fun ht => (afterSuccess_writeHalf ht).trans (restart_eq true), fun r ht hw => ?_, fun r ht => classify_nakData_tolerated ht,
    fun r ht => classify_nakData_final ht, tolerates_iff, fun r => rfl,
    fun r hs hr => ⟨afterRetryable_again .nakAddress hs hr, afterRetryable_again .pecMismatch hs hr⟩,
    fun r hn => ⟨afterRetryable_final .nakAddress hn, afterRetryable_final .pecMismatch hn⟩,
    fun cmd n mask want interval limit hstep => ?_⟩
  · have key : classify g h ctx r step .ok bytes d = _ := afterSuccess_complete (d := d) (g := g) (h := h) (ctx := ctx) (bytes := bytes) ht
      (by rintro c n m w i l rfl; exact hw trivial)
    refine ⟨fun x hj hx => key.trans ((if_pos ⟨hj, (List.getElem?_eq_some_iff.mp hx).1⟩).trans (restart_eq false)), fun hn => ?_⟩
    have hlast : ¬ (step.joined = true ∧ ctx.current + 1 < (d.conv h).steps.length) := fun ⟨hj, hlt⟩ =>
      hn.elim (fun e => absurd (e.symm.trans hj) (by decide)) fun e => absurd hlt (Nat.not_lt.mpr (List.getElem?_eq_none_iff.mp e))
    rw [key.trans (if_neg hlast)]
    exact hfollows (ctx.complete bytes)
  · intro meets compared
    subst hstep
    have key : classify g h ctx true (.waitUntil cmd n mask want interval limit) .ok bytes d = _ :=
      afterSuccess_waitUntil cmd n mask want interval limit
    refine ⟨fun hm => ?_, fun hm hl => key.trans ((if_neg hm).trans (if_pos hl)), fun hm hl hs => ?_, fun cause hm hl hs => ?_⟩
    · rw [key.trans (if_pos hm), complete_nil]
      exact hfollows _
    · rw [key.trans ((if_neg hm).trans (if_neg (Nat.not_le.mpr hl))), show (d.conv h).stop = none from hs]
      rfl
    · rw [key.trans ((if_neg hm).trans (if_neg (Nat.not_le.mpr hl))), show (d.conv h).stop = some cause from hs]
      rfl

end Sys2Proof.Machine
end

section
/-! PROOFS. CONFIGURE_SEGMENT (R60, R61, R117, R118). -/

namespace Sys2Proof.Machine

variable {d : Device} {g : SegId}

/-! ## The record of a body (04 R60, checks 1 and 2) -/

theorem speedOf_code (v : Speed) : speedOf v.code = some v := by cases v <;> rfl

/-- The fields of a body are in their ranges, and the own address is not the sweep address. -/
def ConfigInRange (stall own swAddr : Byte) : Prop :=
  1 ≤ stall.toNat ∧ stall.toNat ≤ 100 ∧ (own = 0#8 ∨ (0x08 ≤ own.toNat ∧ own.toNat ≤ 0x77)) ∧ 1 ≤ swAddr.toNat ∧ swAddr.toNat ≤ 0x7F ∧
    (own = 0#8 ∨ own ≠ swAddr)

section
variable {b0 en stall own bc sw swAddr : Byte} (speed : Speed)

theorem configAt_eq : configAt [b0, en, speed.code, stall, own, bc, sw, swAddr] =
    if within 1 100 stall.toNat && (own == 0#8 || assignable own) && within 0x01 0x7F swAddr.toNat && (own == 0#8 || own != swAddr) then
      some ⟨en != 0#8, speed, stall.toNat, own.setWidth 7, bc != 0#8, sw != 0#8, swAddr.setWidth 7⟩
    else none := by
  rw [configAt, show speedOf (byteAt [b0, en, speed.code, stall, own, bc, sw, swAddr] 2) = some speed from speedOf_code speed]
  rfl

theorem configChecks_iff : (within 1 100 stall.toNat && (own == 0#8 || assignable own) && within 0x01 0x7F swAddr.toNat &&
    (own == 0#8 || own != swAddr)) = true ↔ ConfigInRange stall own swAddr := by
  simp only [Bool.and_eq_true, Bool.or_eq_true, within_iff, beq_iff_eq, assignable_iff, bne_iff_ne, ConfigInRange, and_assoc]

theorem configAt_inRange (h : ConfigInRange stall own swAddr) : configAt [b0, en, speed.code, stall, own, bc, sw, swAddr] =
    some ⟨en != 0#8, speed, stall.toNat, own.setWidth 7, bc != 0#8, sw != 0#8, swAddr.setWidth 7⟩ :=
  (configAt_eq speed).trans (if_pos (configChecks_iff.mpr h))

theorem configAt_outOfRange (h : ¬ ConfigInRange stall own swAddr) : configAt [b0, en, speed.code, stall, own, bc, sw, swAddr] = none :=
  (configAt_eq speed).trans (if_neg fun e => h (configChecks_iff.mp e))

/-- An own address in its range is a 7-bit one: it is 0 in the record only if it is 0 in the body. -/
theorem setWidth_eq_zero_iff (h : own = 0#8 ∨ (0x08 ≤ own.toNat ∧ own.toNat ≤ 0x77)) : own.setWidth 7 = 0#7 ↔ own = 0#8 := by
  refine ⟨fun e => ?_, fun e => by rw [e]; rfl⟩
  obtain h | ⟨h1, h2⟩ := h
  · exact h
  · have := congrArg BitVec.toNat e
    simp only [BitVec.toNat_setWidth, BitVec.toNat_ofNat] at this
    omega

end

/-! ## The segment afterwards (04 R61; 06 R117, R118) -/

/-- The segment that an accepted CONFIGURE_SEGMENT leaves, but for its receiver's record and drive. -/
def Segment.configuredTo (c : SegConfig) (r : Reception) (ack : Bool) (x : Segment) : Segment :=
  { x with
    config := c
    state := if c.enabled then (if x.state = .off then .idle else x.state) else .off
    owner := if c.enabled then (if x.state = .off then .taken else x.owner) else .nobody
    freeCount := if c.enabled then (if x.state = .off then false else x.freeCount) else false
    sweep := if c.enabled && c.sweepEnable then (if x.sweep = .idle ∧ x.alrLow = true then .pending else x.sweep) else .idle
    emptySweeps := if c.enabled && c.sweepEnable then x.emptySweeps else 0
    reception := r
    ackDriven := ack }

/-- The receiver's step of the change touches its record and its drive alone. -/
theorem inactive_closed (x : Segment) : (if x.receiverActive then x else { x with reception := .nothing, ackDriven := false }) =
    { x with
      reception := if x.receiverActive then x.reception else .nothing
      ackDriven := if x.receiverActive then x.ackDriven else false } := by
  split <;> rfl

theorem configure_eq (c : SegConfig) (x : Segment) : ∃ r ack, x.configure c = x.configuredTo c r ack := by
  refine ⟨(x.configure c).reception, (x.configure c).ackDriven, ?_⟩
  unfold Segment.configure
  extract_lets g1 g2 g3 g4
  have h4 : g4 = _ := inactive_closed g3
  generalize (if g3.receiverActive then g3.reception else .nothing) = r at h4
  generalize (if g3.receiverActive then g3.ackDriven else false) = ack at h4
  obtain ⟨enabled, speed, stall, own, broadcast, sweepEnable, sweepAddress⟩ := c
  cases enabled
  · simp [h4, g3, g2, g1, Segment.configuredTo, Segment.disarm]
  · by_cases hs : x.state = .off <;> cases sweepEnable <;> cases ha : x.alrLow <;>
      simp [h4, g3, g2, g1, Segment.configuredTo, Segment.disarm, alrFell_eq, hs, ha]

/-! ## The request (04 R60, checks 3 to 5) -/

theorem configurable_iff {x : Segment} : x.configurable = true ↔
    (x.state = .off ∨ (x.held = true ∧ (x.state = .idle ∨ x.state = .blocked))) ∧ x.reception.inProgress = false := by
  simp [Segment.configurable]

/-- The segment may be configured, and stays enabled unless its lists are empty (checks 3 and 4). -/
def Segment.takesConfig (c : SegConfig) (x : Segment) : Prop :=
  x.configurable = true ∧ (c.enabled || (x.urgent.isEmpty && x.normal.isEmpty)) = true

section
variable {body : List Byte} {c : SegConfig}

theorem configureSegment_unreadable (hc : configAt body = none) : configureSegment body g d = (refuse .badField, d) := by
  rw [configureSegment, hc]

theorem configureSegment_busy (hc : configAt body = some c) (hm : ¬ (d.seg g).takesConfig c) :
    configureSegment body g d = (refuse .busy, d) := by
  simp only [configureSegment, hc]
  split
  · next h1 => exact if_neg fun h2 => hm ⟨h1, h2⟩
  · rfl

theorem configureSegment_ownTaken (hc : configAt body = some c) (hm : (d.seg g).takesConfig c) (h0 : c.ownAddress ≠ 0#7)
    (hl : (lookup g c.ownAddress d).isSome = true) : configureSegment body g d = (refuse .addressIsOwn, d) := by
  obtain ⟨h1, h2⟩ := hm
  simp only [configureSegment, hc, if_pos h1, if_pos h2]
  exact if_pos ⟨h0, hl⟩

theorem configureSegment_done (hc : configAt body = some c) (hm : (d.seg g).takesConfig c)
    (hn : ¬ (c.ownAddress ≠ 0#7 ∧ (lookup g c.ownAddress d).isSome = true)) : configureSegment body g d =
      (⟨.ok, [((d.seg g).configure c).state.code]⟩, d.updSeg g fun _ => (d.seg g).configure c) := by
  obtain ⟨h1, h2⟩ := hm
  simp only [configureSegment, hc, if_pos h1, if_pos h2, if_neg hn, updSeg_seg_same]
  rw [updSeg_congr (f' := fun _ => (d.seg g).configure c) rfl]

end

/-- Settles O40: the checks of R60 in their order, then what the change makes of the segment. -/
theorem configureEnablesKeepsOrDisables : Obligations.ConfigureEnablesKeepsOrDisables := by
  intro s tag en stall own bc sw swAddr g speed o ha c x inRange may ownTaken config
  let body := [byte g.val, en, speed.code, stall, own, bc, sw, swAddr]
  have run : ∀ (r : Reply) {t : Device}, configureSegment body g (found o s.dev) = (r, t) →
      exec c s = replyTo s 0xA0#8 tag (r.status.code :: r.fields) t := fun r t h =>
    request_reply .configureSegment body r rfl rfl rfl (show 8 ≤ 60 by decide) ha rfl ((onSegment_index ..).trans h)
  have hconfig : inRange → configAt body = some config := configAt_inRange speed
  have henabled : config.enabled = true ↔ en ≠ 0#8 := bne_iff_ne
  have hmay : ((found o s.dev).seg g).takesConfig config ↔ may := by
    simp only [Segment.takesConfig, found_seg, configurable_iff, Bool.or_eq_true, henabled, Bool.and_eq_true, List.isEmpty_iff, may,
      and_assoc, x]
  have htaken : inRange → (config.ownAddress ≠ 0#7 ∧ (lookup g config.ownAddress (found o s.dev)).isSome = true ↔ ownTaken) := by
    rintro ⟨-, -, hown, -⟩
    exact and_congr (not_congr (setWidth_eq_zero_iff hown)) lookup_isSome
  refine ⟨fun hr => run (refuse .badField) (configureSegment_unreadable (configAt_outOfRange speed hr)),
    fun hr hm => run (refuse .busy) (configureSegment_busy (hconfig hr) fun e => hm (hmay.mp e)), fun hr hm ht => ?_, fun hr hm ht => ?_⟩
  · obtain ⟨h0, hl⟩ := (htaken hr).mpr ht
    exact run (refuse .addressIsOwn) (configureSegment_ownTaken (hconfig hr) (hmay.mpr hm) h0 hl)
  · refine ⟨x.configure config, run ⟨.ok, _⟩ (configureSegment_done (hconfig hr) (hmay.mpr hm) fun e => ht ((htaken hr).mp e)), ?_⟩
    obtain ⟨r, ack, hx⟩ := configure_eq config x
    have hoff : en = 0#8 → config.enabled = false := fun e => by simp [config, e]
    have hsweep : sw ≠ 0#8 → config.sweepEnable = true := bne_iff_ne.mpr
    have hclear : sw = 0#8 → config.sweepEnable = false := fun e => by simp [config, e]
    rw [hx]
    refine ⟨rfl, rfl, rfl, rfl, rfl, rfl, rfl, rfl, fun he => ?_, fun he hs => ?_, fun he hs => ?_, fun he hw => ?_,
      fun he hw hi hl => ?_, fun he hw hn => ?_⟩
    · simp [Segment.configuredTo, hoff he]
    · simp [Segment.configuredTo, henabled.mpr he, show x.state = .off from hs]
    · simp [Segment.configuredTo, henabled.mpr he, show x.state ≠ .off from hs]
    · simp [Segment.configuredTo, hclear hw]
    · simp [Segment.configuredTo, henabled.mpr he, hsweep hw, show x.sweep = .idle from hi, show x.alrLow = true from hl]
    · have hn : ¬ (x.sweep = .idle ∧ x.alrLow = true) := fun ⟨hi, hl⟩ => hn.elim (· hi) fun e => absurd (hl.symm.trans e) (by decide)
      simp [Segment.configuredTo, henabled.mpr he, hsweep hw, hn]

end Sys2Proof.Machine
end

section
/-! PROOFS. SEGMENT_STATUS and READ_FAULT (R62, R64, R82, R83). -/

namespace Sys2Proof.Machine

variable {d : Device} {g : SegId}

/-! ## SEGMENT_STATUS (04 R62) -/

/-- The answer of a request with a segment's number alone, after the note of the wire that it may bring (log 7). -/
theorem noted_segment_reply {c : Instr} {tag kind : Byte} {s : State} {o : Outbound} {u : Device} {k : RequestKind} (g : SegId) (r : Reply)
    (hc : requestOf c = some (k, tag, [byte g.val])) (hk : k.code + 0x80#8 = kind) (ha : accepts s.dev 1 o = true)
    (hl : lengthAllowed k [byte g.val] = true) (hr : owner k [byte g.val] (found o (takeNote (noteOf c) s.dev)) = (r, u)) :
    exec c s = replyTo s kind tag (r.status.code :: r.fields) u := by
  rw [request_answered hc (by simp) ha hl, hk]
  dsimp only
  rw [hr]

/-- The fields of SEGMENT_STATUS. -/
def Device.statusFields (d : Device) (g : SegId) : List Byte :=
  let x := d.seg g
  [x.state.code, flagByte x.fromBlocked] ++ x.config.bytes ++ [x.owner.code, subState g d] ++ runningBytes x.work ++
    [flagByte (x.sweep == .pending), if x.alrLow then 0#8 else 1#8, flagByte x.fault.isSome, flagByte x.reception.inProgress,
     byte x.urgent.length, byte x.normal.length, byte x.streak, flagByte x.held]

theorem requestSegmentStatus_index (g : SegId) (d : Device) : requestSegmentStatus [byte g.val] d = (⟨.ok, d.statusFields g⟩, d) :=
  onSegment_index ..

/-! ### The sub-state (04 R64) -/

/-- The engine's transaction, or its wait for the bus, stands at a position. -/
theorem pos_eq_some {w : Work} {p : BusPos} : w.pos = some p ↔
    w = .sweep p ∨ ∃ h ctx r pec, w = .conversation h ctx ∧ ctx.phase = .transaction r pec p := by
  cases w with
  | nothing => simp [Work.pos]
  | sweep q => simp [Work.pos]
  | conversation h ctx =>
    cases hp : ctx.phase <;> simp [Work.pos, hp, -Bool.exists_bool]

theorem subState_none (h : (d.seg g).work.pos = none) : subState g d = 0#8 := by
  rw [subState, h]

theorem subState_some {p : BusPos} (h : (d.seg g).work.pos = some p) : subState g d = posCode (d.txnReads g) p := by
  rw [subState, h]

/-! ## READ_FAULT (04 R83) -/

theorem requestReadFault_index (g : SegId) (clear : Byte) (d : Device) : requestReadFault [byte g.val, clear] d =
    (⟨.ok, faultBytes (d.seg g).fault⟩, if clear = 0#8 then d else d.updSeg g fun x => { x with fault := none }) := by
  refine (onSegment_index ..).trans (congrArg _ ?_)
  by_cases h : clear = 0#8
  · rw [if_pos h, if_neg (by simp [flagAt, byteAt, h])]
  · rw [if_neg h, if_pos (by simpa [flagAt, byteAt] using h)]

/-- Settles O41: the fields are read off the segment, the sub-state off the position of its transaction, the fault record by what it holds. -/
theorem segmentStatusAndFaultAreShown : Obligations.SegmentStatusAndFaultAreShown := by
  refine ⟨?_, ?_, ?_⟩
  · intro s wire tag g o ha d x running
    have hrunning : running = runningBytes x.work := by
      simp only [running]
      cases x.work <;> rfl
    rw [hrunning]
    exact noted_segment_reply (k := .segmentStatus) g ⟨.ok, _⟩ rfl rfl ha rfl (requestSegmentStatus_index g _)
  · intro d g at'
    have hpos : ∀ {p}, at' p → (d.seg g).work.pos = some p := pos_eq_some.mpr
    refine ⟨fun hno => subState_none (Option.eq_none_iff_forall_ne_some.mpr fun p hp => hno p (pos_eq_some.mp hp)),
      fun h => subState_some (hpos h), fun h => subState_some (hpos h), fun h => subState_some (hpos h), fun i t h ht => ?_,
      fun i h => subState_some (hpos h), fun i acked h => subState_some (hpos h)⟩
    rw [subState_some (hpos h), Device.txnReads, ht]
    rfl
  · intro s tag clear g o ha c after
    have run : ∀ {f : Option FaultRecord}, (s.dev.seg g).fault = f → exec c s = replyTo s 0xA6#8 tag (0x00#8 :: faultBytes f) after :=
      fun hf => request_reply .readFault [byte g.val, clear] ⟨.ok, _⟩ rfl rfl rfl (show 2 ≤ 60 by decide) ha rfl
        (hf ▸ requestReadFault_index g clear (found o s.dev))
    refine ⟨fun hf => run hf, fun f h i n hf hr hb => (run hf).trans ?_, fun f h i hf hr hb => (run hf).trans ?_,
      fun f n hf hr hb => (run hf).trans ?_, fun f hf hr hb => (run hf).trans ?_⟩
    all_goals
      simp only [faultBytes, hr, hb]
      rfl

end Sys2Proof.Machine
end

section
/-! PROOFS. What ends the engine's work by force: the end of a conversation as far as the directory, the pool, the schedule and the reports
go, and the segment that enters RECOVERING (R9, R37, R74 to R77, R82). -/

namespace Sys2Proof.Machine

variable {d t : Device} {g : SegId}

/-! ## The four tables that the end of a conversation reads and writes (01 R9, 02 R37) -/

/-- Two devices agree on the directory, the pool, the schedule and the reports. -/
structure SameTables (d t : Device) : Prop where
  directory : t.directory = d.directory
  pool : t.pool = d.pool
  schedule : t.schedule = d.schedule
  reports : t.reports = d.reports

theorem SameTables.refl (d : Device) : SameTables d d := ⟨rfl, rfl, rfl, rfl⟩

theorem SameTables.trans {e : Device} (h : SameTables d e) (k : SameTables e t) : SameTables d t :=
  ⟨k.directory.trans h.directory, k.pool.trans h.pool, k.schedule.trans h.schedule, k.reports.trans h.reports⟩

theorem SameTables.slot (h : SameTables d t) (k : SlotId) : t.slot k = d.slot k := by rw [Device.slot, Device.slot, h.pool]

theorem updSeg_sameTables (g : SegId) (f : Segment → Segment) (d : Device) : SameTables d (d.updSeg g f) := ⟨rfl, rfl, rfl, rfl⟩

/-- The four tables of a device among the other parts of another one. -/
def Device.among (x d : Device) : Device := { x with directory := d.directory, pool := d.pool, schedule := d.schedule, reports := d.reports }

theorem SameTables.among (h : SameTables d t) : t = t.among d := by
  obtain ⟨h1, h2, h3, h4⟩ := h
  rw [Device.among, ← h1, ← h2, ← h3, ← h4]

theorem among_sameTables (x d : Device) : SameTables d (x.among d) := ⟨rfl, rfl, rfl, rfl⟩

section
variable (x : Device)

theorem ackEvent_among (i : TargetId) (d : Device) : ackEvent i (x.among d) = x.among (ackEvent i d) := by
  have he : (x.among d).entry i = d.entry i := rfl
  unfold ackEvent
  simp only [he]
  cases (d.entry i).presence <;> rfl

theorem nakEvent_among (i : TargetId) (d : Device) : nakEvent i (x.among d) = x.among (nakEvent i d) := by
  have he : (x.among d).entry i = d.entry i := rfl
  unfold nakEvent
  simp only [he]
  cases (d.entry i).presence <;> simp only [apply_ite x.among] <;> rfl

theorem addressEvent_among (a : Target) (b : Option Bool) (d : Device) :
    addressEvent a b (x.among d) = x.among (addressEvent a b d) := by
  unfold addressEvent
  split
  · exact ackEvent_among x _ d
  · exact nakEvent_among x _ d
  · rfl

theorem releaseTarget_among (a : Target) (d : Device) : releaseTarget a (x.among d) = x.among (releaseTarget a d) := by
  cases a with
  | raw => rfl
  | directory i =>
    have he : (x.among d).entry i = d.entry i := rfl
    simp only [releaseTarget, releaseRef, he, apply_ite x.among]
    rfl

theorem applySuccess_among (bank : Bank) (k : PollId) (e : PollEntry) (v : List Byte) (d : Device) :
    applySuccess bank k e v (x.among d) = x.among (applySuccess bank k e v d) := by
  unfold applySuccess
  split
  · split <;> rfl
  · rfl
  · rfl

theorem applyFailure_among (bank : Bank) (k : PollId) (e : PollEntry) (o : ConvOutcome) (d : Device) :
    applyFailure bank k e o (x.among d) = x.among (applyFailure bank k e o d) := by
  unfold applyFailure
  split <;> rfl

theorem takePollResult_among (bank : Bank) (k : PollId) (h : Handle) (r : ConvResult) (d : Device) :
    takePollResult bank k h r (x.among d) = x.among (takePollResult bank k h r d) := by
  have hpoll : (x.among d).poll bank k = d.poll bank k := rfl
  have hactive : (x.among d).schedule.active = d.schedule.active := rfl
  simp only [takePollResult, hpoll, hactive, applySuccess_among, applyFailure_among]
  split
  · rfl
  · simp only [apply_ite x.among]
    rfl

theorem finish_among (k : SlotId) (r : ConvResult) (d : Device) : finish k r (x.among d) = x.among (finish k r d) := by
  have hslot : (x.among d).slot k = d.slot k := rfl
  have hhandle : (x.among d).handle k = d.handle k := rfl
  have hupd : ∀ (d : Device) (u : Slot → Slot), (x.among d).updSlot k u = x.among (d.updSlot k u) := fun _ _ => rfl
  have hfree : ∀ d : Device, freeSlot k (x.among d) = x.among (freeSlot k d) := fun _ => rfl
  simp only [finish, hslot, hhandle, hupd, releaseTarget_among, takePollResult_among, hfree]
  split
  · rfl
  · split <;> rfl
  · rfl
  · rfl

end

theorem SameTables.addressEvent (h : SameTables d t) (a : Target) (b : Option Bool) :
    SameTables (addressEvent a b d) (addressEvent a b t) := by
  rw [h.among, addressEvent_among]
  exact among_sameTables ..

theorem SameTables.finish (h : SameTables d t) (k : SlotId) (r : ConvResult) : SameTables (finish k r d) (finish k r t) := by
  rw [h.among, finish_among]
  exact among_sameTables ..

theorem SameTables.endConversation (h : SameTables d t) (g : SegId) (hd : Handle) (ctx : Context) (o : ConvOutcome) (n : Option Nat) :
    SameTables (Machine.finish hd.slot ⟨o, ctx.completed, n, ctx.readData, ctx.lastValue⟩ d) (endConversation g hd ctx o n t) :=
  (h.finish ..).trans (updSeg_sameTables ..)

theorem endConversation_seg (g : SegId) (hd : Handle) (ctx : Context) (o : ConvOutcome) (n : Option Nat) (d : Device) :
    (endConversation g hd ctx o n d).seg g = { d.seg g with work := .nothing, state := .idle } := by
  rw [endConversation, updSeg_seg_same, finish_seg]

theorem posSampled_eq : posSampled = Claims.sampled := by
  funext p
  cases p <;> rfl

/-- The end of a conversation after its address event, on a device whose four tables are those of another one. -/
theorem SameTables.endedAfterEvent {x : Device} (h : SameTables (Machine.finish k r (Machine.addressEvent a b d)) x) :
    Claims.endedAfterEvent a b k r d x ∧ Claims.endedWith (d.slot k) r (x.slot k) := by
  refine ⟨⟨h.directory, h.pool, h.schedule, h.reports⟩, ?_⟩
  have key := finish_endedWith k r (Machine.addressEvent a b d)
  rwa [(addressEvent_slotsKept a b d).slot, ← h.slot] at key

/-! ## A reception is cut, and the segment enters RECOVERING (06 R110; 04 R76, R77) -/

/-- The inbox once a reception that stood at a record has been cut. -/
def Inbox.cut (r : Reception) (x : Inbox) : Inbox := if r.writes then { x with reserved := x.reserved - 1 } else x

/-- The segment without its reception. Where none stood, the receiver's drive is left alone. -/
def Segment.cut (x : Segment) : Segment :=
  { x with reception := .nothing, ackDriven := if x.reception = .nothing then x.ackDriven else false }

theorem cut_of_standing {x : Segment} (h : x.reception ≠ .nothing) : x.cut = { x with reception := .nothing, ackDriven := false } := by
  rw [Segment.cut, if_neg h]

theorem cutReception_eq (g : SegId) (d : Device) :
    cutReception g d = (d.updInbox (Inbox.cut (d.seg g).reception)).updSeg g Segment.cut := by
  have hclosed := cut_of_standing (x := d.seg g)
  unfold cutReception
  split <;> rename_i hr <;> rw [hr] at hclosed ⊢
  · exact updSeg_congr (d := releasePlace d) (hclosed nofun).symm
  · exact updSeg_congr (hclosed nofun).symm
  · exact updSeg_congr (hclosed nofun).symm
  · refine (updSeg_self (d := d) ?_).symm
    rw [Segment.cut, if_pos hr, ← hr]

theorem enterRecovering_seg (g : SegId) (fromBlocked : Bool) (d : Device) : (enterRecovering g fromBlocked d).seg g =
    { (d.seg g).cut with state := .recovering, fromBlocked := fromBlocked, pulses := 0 } := by
  rw [enterRecovering, cutReception_eq, updSeg_updSeg, updSeg_seg_same]
  rfl

theorem enterRecovering_sameTables (g : SegId) (fromBlocked : Bool) (d : Device) : SameTables d (enterRecovering g fromBlocked d) := by
  rw [enterRecovering, cutReception_eq]
  exact ⟨rfl, rfl, rfl, rfl⟩

theorem enterRecovering_inbox (g : SegId) (fromBlocked : Bool) (d : Device) :
    (enterRecovering g fromBlocked d).inbox = Inbox.cut (d.seg g).reception d.inbox := by
  rw [enterRecovering, cutReception_eq]
  rfl

/-! ## A fault of the wire (04 R74, R75, R82; 06 R122) -/

/-- The fault record once a fault is entered: an empty one takes it, a full one counts it. -/
def Segment.faultEntered (x : Segment) (kind : FaultKind) (running : Option (Handle × Nat)) (byteIndex : Option Nat) : Option FaultRecord :=
  match x.fault with
  | none => some ⟨kind, running, byteIndex, 0⟩
  | some f => some { f with further := satInc255 f.further }

section
variable {kind : FaultKind} {running : Option (Handle × Nat)} {byteIndex : Option Nat}

theorem enterFault_sameTables (d : Device) : SameTables d (enterFault g kind running byteIndex d) := updSeg_sameTables ..

theorem enterFault_seg_same (d : Device) : (enterFault g kind running byteIndex d).seg g =
    { d.seg g with fault := (d.seg g).faultEntered kind running byteIndex } := by
  rw [enterFault, updSeg_seg_same]
  rfl

/-- A segment that lets go of its work with a fault entered, and then enters RECOVERING. -/
theorem faulted_recovering {x y : Segment} (hwork : y.work = .nothing) (hfault : y.fault = x.faultEntered kind running byteIndex)
    (hrest : y.urgent = x.urgent ∧ y.normal = x.normal ∧ y.streak = x.streak ∧ y.held = x.held ∧ y.config = x.config) :
    Claims.faulted x { y.cut with state := .recovering, fromBlocked := false, pulses := 0 } kind running byteIndex := by
  refine ⟨rfl, rfl, rfl, hwork, rfl, fun hf => hfault.trans ?_, fun f hf => hfault.trans ?_, hrest⟩
  · rw [Segment.faultEntered, hf]
  · rw [Segment.faultEntered, hf]
    rfl

end

theorem ownStart_eq (g : SegId) (pos : BusPos) (d : Device) : ownStart g pos d = d.updSeg g fun x =>
    { x with
      owner := if posPastStart pos then .taken else x.owner
      freeCount := if posPastStart pos then false else x.freeCount } := by
  unfold ownStart
  split
  · rfl
  · exact (updSeg_self rfl).symm

theorem ownStart_sameTables (g : SegId) (pos : BusPos) (d : Device) : SameTables d (ownStart g pos d) := by
  rw [ownStart_eq]
  exact updSeg_sameTables ..

section
variable (kind : FaultKind) (pos : BusPos)

/-- The fault ends the running conversation after its address event, and the segment enters RECOVERING. -/
theorem wireFault_conversation {h : Handle} {ctx : Context} (hw : (d.seg g).work = .conversation h ctx) :
    Claims.faulted (d.seg g) ((wireFault g kind pos d).seg g) kind (some (h, ctx.current)) (posByteIndex pos) ∧
    SameTables (finish h.slot ⟨kind.outcome, ctx.completed, some ctx.current, ctx.readData, ctx.lastValue⟩
      (addressEvent (d.conv h).target (posSampled pos) d)) (wireFault g kind pos d) := by
  have htold := ((ownStart_sameTables g pos d).addressEvent (d.conv h).target (posSampled pos)).trans
    (enterFault_sameTables (g := g) (kind := kind) (running := some (h, ctx.current)) (byteIndex := posByteIndex pos) _)
  simp only [wireFault, hw, endFailed]
  refine ⟨?_, (htold.endConversation g h { ctx with stepData := [] } kind.outcome (some ctx.current)).trans (enterRecovering_sameTables ..)⟩
  rw [enterRecovering_seg, endConversation_seg, enterFault_seg_same, addressEvent_seg, ownStart_eq, updSeg_seg_same]
  exact faulted_recovering rfl rfl ⟨rfl, rfl, rfl, rfl, rfl⟩

/-- A running sweep ends without a result, and is pending again only while ALR asks for it. -/
theorem wireFault_sweep {p : BusPos} (hw : (d.seg g).work = .sweep p) :
    Claims.faulted (d.seg g) ((wireFault g kind pos d).seg g) kind none (posByteIndex pos) ∧
    ((wireFault g kind pos d).seg g).sweep =
      if (d.seg g).alrLow = true ∧ (d.seg g).config.sweepEnable = true then .pending else .idle := by
  simp only [wireFault, hw, endSweep, ownStart_eq, enterRecovering_seg, updSeg_seg_same, enterFault_seg_same, Segment.rearm]
  split
  · exact ⟨faulted_recovering rfl rfl ⟨rfl, rfl, rfl, rfl, rfl⟩, rfl⟩
  · exact ⟨faulted_recovering rfl rfl ⟨rfl, rfl, rfl, rfl, rfl⟩, rfl⟩

end

/-! ## The line watch (04 R75) -/

/-- The line watch of an engine without work ends nothing. -/
theorem lineWatchFires_idle (hw : (d.seg g).work = .nothing) :
    Claims.faulted (d.seg g) ((lineWatchFires g d).seg g) .busFault none none ∧
    ((lineWatchFires g d).seg g).sweep = (d.seg g).sweep ∧ SameTables d (lineWatchFires g d) := by
  simp only [lineWatchFires, hw]
  refine ⟨?_, ?_, (updSeg_sameTables ..).trans (enterRecovering_sameTables ..)⟩ <;> rw [enterRecovering_seg, enterFault_seg_same]
  · exact faulted_recovering hw rfl ⟨rfl, rfl, rfl, rfl, rfl⟩
  · rfl

theorem lineWatchFires_working (hw : (d.seg g).work ≠ .nothing) : lineWatchFires g d = wireFault g .busFault .waitFree d := by
  unfold lineWatchFires
  split
  · next e => exact absurd e hw
  · rfl

theorem lineWatchFires_faulted (g : SegId) (d : Device) :
    ∃ running byteIndex, Claims.faulted (d.seg g) ((lineWatchFires g d).seg g) .busFault running byteIndex := by
  cases hw : (d.seg g).work with
  | nothing => exact ⟨_, _, (lineWatchFires_idle hw).1⟩
  | conversation h ctx =>
    rw [lineWatchFires_working (by simp [hw])]
    exact ⟨_, _, (wireFault_conversation .busFault .waitFree hw).1⟩
  | sweep p =>
    rw [lineWatchFires_working (by simp [hw])]
    exact ⟨_, _, (wireFault_sweep .busFault .waitFree hw).1⟩

theorem lineWatch_waitFree {x : Segment} (h : x.work.pos = some .waitFree) : x.lineWatch = true := by
  simp [Segment.lineWatch, h]

theorem lineWatch_idle {x : Segment} (hs : x.state = .idle) (hh : x.held = false) (ho : x.owner = .taken)
    (hoffers : x.sweep = .pending ∨ x.urgent ≠ [] ∨ x.normal ≠ []) : x.lineWatch = true := by
  simp [Segment.lineWatch, hs, hh, ho, offers_iff.mpr hoffers]

/-- Settles O50: by what the fault ends, a conversation, a sweep or nothing; a stall of a reception by whether the line watch runs. -/
theorem stallsAndFaultsStartRecovery : Obligations.StallsAndFaultsStartRecovery := by
  intro s g x ends
  have fault : ∀ {c : Instr} {f : Device → Device} (kind : FaultKind) (pos : BusPos), eventAction c = some f →
      (x.work ≠ .nothing → f s.dev = wireFault g kind pos s.dev) → ends c kind kind.outcome pos := by
    intro c f kind pos hc hf
    refine ⟨fun h ctx hw => ?_, fun p hw => ?_⟩
    · obtain ⟨hfaulted, htables⟩ := wireFault_conversation kind pos hw
      rw [posSampled_eq] at htables
      obtain ⟨htold, hended⟩ := htables.endedAfterEvent
      exact ⟨_, exec_event_eq hc (hf (by simp [hw])), hfaulted, hended, htold⟩
    · exact ⟨_, exec_event_eq hc (hf (by simp [hw])), wireFault_sweep kind pos hw⟩
  refine ⟨fun pos hp => fault .stallTimeout pos rfl fun _ => if_pos hp, fun hp => fault .busFault .start rfl fun _ => if_pos hp,
    fun i acked hp => fault .busFault _ rfl fun _ => if_pos hp,
    fun hp => fault .busFault .waitFree rfl fun hw => (if_pos (lineWatch_waitFree hp)).trans (lineWatchFires_working hw),
    fun hs hw hh ho hoffers => ?_, fun hr => exec_event_eq rfl (if_neg (by simpa using hr)), fun hr hl => ?_, fun hr hl => ?_⟩
  · obtain ⟨hfaulted, hsweep, htables⟩ := lineWatchFires_idle hw
    exact ⟨_, exec_event_eq rfl (if_pos (lineWatch_idle hs hh ho hoffers)), hfaulted, hsweep, htables.slot⟩
  · have hne : x.reception ≠ .nothing := fun e => by simp [e, Reception.inProgress] at hr
    refine ⟨Inbox.cut x.reception s.dev.inbox, exec_event_eq rfl ?_, rfl⟩
    refine (if_pos hr).trans ((if_neg (by simpa using hl)).trans ((cutReception_eq g s.dev).trans (updSeg_congr ?_)))
    exact cut_of_standing (x := x) hne
  · obtain ⟨r, b, hstate, -, -, hwork, hreception, hnone, hsome, -⟩ := lineWatchFires_faulted g (cutReception g s.dev)
    refine ⟨_, exec_event_eq rfl ((if_pos hr).trans (if_pos hl)), hstate, hreception, ?_, hwork⟩
    cases hf : ((cutReception g s.dev).seg g).fault with
    | none => rw [hnone hf]; rfl
    | some f => rw [hsome f hf]; rfl

end Sys2Proof.Machine
end

section
/-! PROOFS. RESET_SEGMENT (R80), with the note of the wire that it brings (logs 7 and 32). -/

namespace Sys2Proof.Machine

variable {d : Device} {g : SegId}

/-! ## The note of the wire -/

/-- A note moves the engine's work on the wire, and leaves what runs and what it has read so far. -/
def Work.Noted : Work → Work → Prop
  | .nothing, w => w = .nothing
  | .sweep _, w => ∃ p, w = .sweep p
  | .conversation h ctx, w => ∃ phase data, w = .conversation h { ctx with phase := phase, stepData := data }

theorem Work.Noted.refl (w : Work) : w.Noted w := by
  cases w with
  | nothing => rfl
  | sweep p => exact ⟨p, rfl⟩
  | conversation h ctx => exact ⟨ctx.phase, ctx.stepData, rfl⟩

theorem moveTo_noted (pos : BusPos) (received : List Byte) (w : Work) : w.Noted (w.moveTo pos received) := by
  cases w with
  | nothing => rfl
  | sweep p => exact ⟨pos, rfl⟩
  | conversation h ctx =>
    unfold Work.moveTo
    dsimp only
    split
    · exact ⟨_, _, rfl⟩
    · exact .refl _

theorem Work.Noted.conversation {w : Work} {h : Handle} {ctx : Context} (hn : w.Noted (.conversation h ctx)) :
    ∃ before, w = .conversation h before := by
  cases w with
  | nothing => cases hn
  | sweep p =>
    obtain ⟨q, e⟩ := hn
    cases e
  | conversation hd before =>
    obtain ⟨phase, data, e⟩ := hn
    cases e
    exact ⟨before, rfl⟩

theorem Work.Noted.runningBytes {w w' : Work} (h : w.Noted w') : runningBytes w' = runningBytes w := by
  cases w with
  | nothing => rw [show w' = _ from h]
  | sweep p =>
    obtain ⟨q, rfl⟩ := h
    rfl
  | conversation hd ctx =>
    obtain ⟨phase, data, rfl⟩ := h
    rfl

theorem takeNote_seg (n : Option WireNote) (d : Device) (j : SegId) : ∃ owner count work, (d.seg j).work.Noted work ∧
    (takeNote n d).seg j = { d.seg j with owner := owner, freeCount := count, work := work } := by
  have same : ∃ owner count work, (d.seg j).work.Noted work ∧
      d.seg j = { d.seg j with owner := owner, freeCount := count, work := work } := ⟨_, _, _, .refl _, rfl⟩
  unfold takeNote
  split
  · exact same
  · next w =>
    split
    · rw [ownStart_eq, updSeg_updSeg, updSeg_seg]
      split
      · exact ⟨_, _, _, moveTo_noted .., rfl⟩
      · exact same
    · exact same

theorem takeNote_sameTables (n : Option WireNote) (d : Device) : SameTables d (takeNote n d) ∧ (takeNote n d).inbox = d.inbox := by
  unfold takeNote
  split
  · exact ⟨.refl d, rfl⟩
  · split
    · rw [ownStart_eq]
      exact ⟨⟨rfl, rfl, rfl, rfl⟩, rfl⟩
    · exact ⟨.refl d, rfl⟩

/-! ## The running work is aborted (04 R80, steps 1 and 2) -/

/-- The acknowledge bit of the address byte as far as a conversation's engine has come. -/
def Phase.sampled : Phase → Option Bool
  | .transaction _ _ pos => Claims.sampled pos
  | _ => none

/-- The result of a conversation that a reset aborts. -/
def Context.aborted (ctx : Context) : ConvResult := ⟨.segmentReset, ctx.completed, some ctx.completed, ctx.readData, ctx.lastValue⟩

theorem abortWork_conversation {h : Handle} {ctx : Context} (hw : (d.seg g).work = .conversation h ctx) :
    abortWork g d = endConversation g h ctx .segmentReset (some ctx.completed) (addressEvent (d.conv h).target ctx.phase.sampled d) := by
  simp only [abortWork, hw, posSampled_eq]
  rfl

theorem abortWork_other (hw : ∀ h ctx, (d.seg g).work ≠ .conversation h ctx) : SameTables d (abortWork g d) := by
  unfold abortWork
  split
  · exact .refl d
  · exact updSeg_sameTables ..
  · next h ctx e => exact absurd e (hw h ctx)

theorem abortWork_seg (g : SegId) (d : Device) : ∃ state, (abortWork g d).seg g = { d.seg g with work := .nothing, state := state } := by
  unfold abortWork
  split <;> rename_i hw
  · exact ⟨_, by rw [← hw]⟩
  · exact ⟨_, updSeg_seg_same ..⟩
  · exact ⟨_, by rw [endConversation_seg, addressEvent_seg]⟩

theorem abortWork_seg_other {j : SegId} (hj : j ≠ g) (d : Device) : (abortWork g d).seg j = d.seg j := by
  unfold abortWork
  split
  · rfl
  · exact updSeg_seg_other _ _ hj
  · exact ((endConversation_move ..).other j hj).trans (addressEvent_seg ..)

theorem abortWork_inbox (g : SegId) (d : Device) : (abortWork g d).inbox = d.inbox := by
  unfold abortWork
  split
  · rfl
  · rfl
  · exact (finish_oneSlot ..).kept.inbox.trans (addressEvent_slotsKept ..).inbox

/-! ## The reset -/

/-- The device once a RESET_SEGMENT has been taken. -/
def segmentReset (g : SegId) (d : Device) : Device :=
  enterRecovering g ((d.seg g).state == .blocked || ((d.seg g).state == .recovering && (d.seg g).fromBlocked))
    ((abortWork g d).updSeg g fun x => { x with fault := none }.disarm)

theorem requestResetSegment_off (hs : (d.seg g).state = .off) : requestResetSegment [byte g.val] d = (refuse .segmentOff, d) :=
  (onSegment_index ..).trans (if_pos hs)

theorem requestResetSegment_on (hs : (d.seg g).state ≠ .off) :
    requestResetSegment [byte g.val] d = (⟨.ok, runningBytes (d.seg g).work⟩, segmentReset g d) :=
  (onSegment_index ..).trans (if_neg hs)

theorem segmentReset_sameTables (g : SegId) (d : Device) : SameTables (abortWork g d) (segmentReset g d) :=
  (updSeg_sameTables ..).trans (enterRecovering_sameTables ..)

theorem segmentReset_conversation {h : Handle} {ctx : Context} (hw : (d.seg g).work = .conversation h ctx) :
    SameTables (finish h.slot ctx.aborted (addressEvent (d.conv h).target ctx.phase.sampled d)) (segmentReset g d) := by
  refine .trans ?_ (segmentReset_sameTables g d)
  rw [abortWork_conversation hw]
  exact (SameTables.refl _).endConversation ..

theorem segmentReset_other (hw : ∀ h ctx, (d.seg g).work ≠ .conversation h ctx) : SameTables d (segmentReset g d) :=
  (abortWork_other hw).trans (segmentReset_sameTables g d)

theorem segmentReset_slot_other {k : SlotId} (hk : ∀ h ctx, (d.seg g).work = .conversation h ctx → h.slot ≠ k) :
    (segmentReset g d).slot k = d.slot k := by
  by_cases hw : ∃ h ctx, (d.seg g).work = .conversation h ctx
  · obtain ⟨h, ctx, hw⟩ := hw
    rw [(segmentReset_conversation hw).slot, (finish_oneSlot ..).other (Ne.symm (hk h ctx hw)), (addressEvent_slotsKept ..).slot]
  · exact (segmentReset_other fun h ctx e => hw ⟨h, ctx, e⟩).slot k

theorem segmentReset_seg (g : SegId) (d : Device) : (segmentReset g d).seg g = { (d.seg g).cut with
    state := .recovering
    fromBlocked := (d.seg g).state == .blocked || ((d.seg g).state == .recovering && (d.seg g).fromBlocked)
    pulses := 0
    work := .nothing
    fault := none
    sweep := .idle
    emptySweeps := 0 } := by
  obtain ⟨state, hseg⟩ := abortWork_seg g d
  rw [segmentReset, enterRecovering_seg, updSeg_seg_same, hseg]
  rfl

theorem segmentReset_seg_other {j : SegId} (hj : j ≠ g) (d : Device) : (segmentReset g d).seg j = d.seg j := by
  rw [segmentReset, enterRecovering_seg_other hj, updSeg_seg_other _ _ hj, abortWork_seg_other hj]

theorem segmentReset_inbox (g : SegId) (d : Device) : (segmentReset g d).inbox = Inbox.cut (d.seg g).reception d.inbox := by
  obtain ⟨state, hseg⟩ := abortWork_seg g d
  rw [segmentReset, enterRecovering_inbox, updSeg_seg_same, hseg, updSeg_inbox, abortWork_inbox]
  rfl

/-- Settles O43: the note leaves what runs, the reset aborts it, and the segment enters RECOVERING. -/
theorem resetSegmentForcesRecovery : Obligations.ResetSegmentForcesRecovery := by
  intro s wire tag g o ha c x running
  obtain ⟨htables, hinbox⟩ := takeNote_sameTables wire s.dev
  obtain ⟨owner, count, work, hnoted, hseg⟩ := takeNote_seg wire s.dev g
  generalize hd : takeNote wire s.dev = noted at htables hinbox hseg
  have run : ∀ (r : Reply) {t : Device}, requestResetSegment [byte g.val] (found o noted) = (r, t) →
      exec c s = replyTo s 0xA4#8 tag (r.status.code :: r.fields) t := fun r t h =>
    noted_segment_reply (k := .resetSegment) g r rfl rfl ha rfl (by rw [show noteOf c = wire from rfl, hd]; exact h)
  have hfound : (found o noted).seg g = { x with owner := owner, freeCount := count, work := work } := hseg
  have hrunning : running = runningBytes x.work := by
    simp only [running]
    cases x.work <;> rfl
  refine ⟨fun hs => run (refuse .segmentOff) (requestResetSegment_off (by rw [hfound]; exact hs)),
    fun hs => ⟨segmentReset g (found o noted), ?_, ?_⟩⟩
  · rw [hrunning, ← hnoted.runningBytes]
    exact run ⟨.ok, runningBytes work⟩ (by rw [requestResetSegment_on (by rw [hfound]; exact hs), hfound])
  · have hafter := segmentReset_seg g (found o noted)
    have hcut := segmentReset_inbox g (found o noted)
    rw [hfound] at hafter hcut
    have hinbox : (found o noted).inbox = s.dev.inbox := hinbox
    have hslot : ∀ k, (found o noted).slot k = s.dev.slot k := htables.slot
    have hport : SameTables noted (found o noted) := ⟨rfl, rfl, rfl, rfl⟩
    have before : ∀ h ctx, ((found o noted).seg g).work = .conversation h ctx → ∃ ctx, x.work = .conversation h ctx := by
      rw [hfound]
      rintro h ctx rfl
      exact hnoted.conversation
    have aborted : ∀ h ctx, ((found o noted).seg g).work = .conversation h ctx → SameTables
        (finish h.slot ctx.aborted (addressEvent (s.dev.conv h).target ctx.phase.sampled noted)) (segmentReset g (found o noted)) := by
      intro h ctx hw
      have key := segmentReset_conversation hw
      rw [Device.conv, hslot] at key
      exact ((hport.addressEvent ..).finish ..).trans key
    rw [hafter]
    refine ⟨rfl, rfl, rfl, rfl, rfl, rfl, rfl, ?_, rfl, rfl, rfl, rfl, rfl, fun hw => ?_, fun hw => ?_, fun j hj => ?_, fun k hk => ?_,
      fun h ctx hw => ?_, fun h ctx hw => ?_, fun hw => ?_⟩
    · simp
    · rw [hcut, hinbox]
      exact if_pos hw
    · rw [hcut, hinbox]
      exact if_neg (Bool.eq_false_iff.mp hw)
    · exact segmentReset_seg_other hj _
    · rw [← hslot k]
      refine segmentReset_slot_other fun h ctx hw => ?_
      obtain ⟨ctx, hw⟩ := before h ctx hw
      exact hk h ctx hw
    · have hn : x.work.Noted work := hnoted
      rw [hw] at hn
      obtain ⟨phase, data, hn⟩ := hn
      obtain ⟨-, hended⟩ := (aborted h _ (by rw [hfound, hn])).endedAfterEvent
      rwa [htables.slot] at hended
    · exact (aborted h ctx hw).endedAfterEvent.1
    · have hnone : ∀ h ctx, ((found o noted).seg g).work ≠ .conversation h ctx := fun h ctx e => by
        obtain ⟨ctx, e⟩ := before h ctx e
        exact hw h ctx e
      obtain ⟨hdirectory, -, hschedule, hreports⟩ := htables.trans (hport.trans (segmentReset_other hnone))
      exact ⟨hdirectory, hschedule, hreports⟩

end Sys2Proof.Machine
end

section
/-! PROOFS. What the actions below the port leave alone, said once: each keeps every property of the device that the end of a conversation's
own parts, a change of a slot, and a change of some of the segments but not of their configuration or HELD cannot break. -/

namespace Sys2Proof.Machine

/-- A property that changes of directory entries, poll entries and reports, of slots, and of the segments in a set keep, as long as the latter
leave configuration and HELD alone. -/
structure Framed (S : SegId → Prop) (P : Device → Prop) : Prop where
  parts : ∀ {d t}, SlotsKept d t → P d → P t
  slot : ∀ i f d, P d → P (d.updSlot i f)
  seg : ∀ g f d, S g → (f (d.seg g)).config = (d.seg g).config → (f (d.seg g)).held = (d.seg g).held → P d → P (d.updSeg g f)

/-- One that changes of the inbox keep too, so that a reception may be cut or end. -/
structure FramedInbox (S : SegId → Prop) (P : Device → Prop) : Prop extends Framed S P where
  inbox : ∀ f d, P d → P (d.updInbox f)

variable {S : SegId → Prop} {P : Device → Prop} {d : Device} {g : SegId}

/-! ## The pool (02) -/

section
variable (hP : Framed S P)
include hP

theorem post_framed (b : ReportBody) (h : P d) : P (post b d) := hP.parts (post_slotsKept ..) h

theorem finish_framed (k : SlotId) (r : ConvResult) (h : P d) : P (finish k r d) :=
  hP.parts (finish_oneSlot k r d).kept (hP.slot _ _ _ h)

theorem releaseTarget_framed (t : Target) (h : P d) : P (releaseTarget t d) := hP.parts (releaseTarget_slotsKept ..) h

theorem addressEvent_framed (t : Target) (b : Option Bool) (h : P d) : P (addressEvent t b d) := hP.parts (addressEvent_slotsKept ..) h

theorem setStop_framed (k : SlotId) (c : StopCause) (h : P d) : P (setStop k c d) := hP.slot _ _ _ h

end

/-! ## The engine and the sweep (03 to 06) -/

section
variable (hP : Framed S P) (hg : S g)
include hP hg

theorem setContext_framed (hd : Handle) (ctx : Context) (h : P d) : P (setContext g hd ctx d) := hP.seg _ _ _ hg rfl rfl h

theorem endConversation_framed (hd : Handle) (ctx : Context) (o : ConvOutcome) (n : Option Nat) (h : P d) :
    P (endConversation g hd ctx o n d) := hP.seg _ _ _ hg rfl rfl (finish_framed hP _ _ h)

theorem enterWaitFree_framed (hd : Handle) (ctx : Context) (h : P d) : P (enterWaitFree g hd ctx d) := by
  unfold enterWaitFree
  split
  · exact endConversation_framed hP hg _ _ _ _ h
  · exact setContext_framed hP hg _ _ h

theorem enterStep_framed (hd : Handle) (ctx : Context) (h : P d) : P (enterStep g hd ctx d) := by
  unfold enterStep
  split
  · exact endConversation_framed hP hg _ _ _ _ h
  · split
    · exact endConversation_framed hP hg _ _ _ _ h
    · exact setContext_framed hP hg _ _ h
  · exact enterWaitFree_framed hP hg _ _ h

/-- The next transaction follows by repeated START. -/
theorem restart_framed (hd : Handle) (ctx : Context) (r : Bool) (h : P d) :
    P ((setTransaction g hd ctx r .start d).updSeg g fun x => { x with freeCount := false }) :=
  hP.seg _ _ _ hg rfl rfl (setContext_framed hP hg _ _ h)

theorem afterSuccess_framed (hd : Handle) (ctx : Context) (r : Bool) (st : Step) (bs : List Byte) (h : P d) :
    P (afterSuccess g hd ctx r st bs d) := by
  unfold afterSuccess
  split
  · exact restart_framed hP hg _ _ _ h
  · split
    · dsimp only
      split
      · exact enterStep_framed hP hg _ _ h
      · split
        · exact endConversation_framed hP hg _ _ _ _ h
        · split
          · exact endConversation_framed hP hg _ _ _ _ h
          · exact setContext_framed hP hg _ _ h
    · dsimp only
      split
      · exact restart_framed hP hg _ _ _ h
      · exact enterStep_framed hP hg _ _ h

theorem afterRetryable_framed (hd : Handle) (ctx : Context) (o : ConvOutcome) (h : P d) : P (afterRetryable g hd ctx o d) := by
  unfold afterRetryable
  dsimp only
  split
  · exact setContext_framed hP hg _ _ h
  · exact endConversation_framed hP hg _ _ _ _ h

theorem afterArbLost_framed (hd : Handle) (ctx : Context) (h : P d) : P (afterArbLost g hd ctx d) := by
  unfold afterArbLost
  dsimp only
  split
  · exact endConversation_framed hP hg _ _ _ _ h
  · split
    · exact setContext_framed hP hg _ _ h
    · exact endConversation_framed hP hg _ _ _ _ h

theorem classify_framed (hd : Handle) (ctx : Context) (r : Bool) (st : Step) (o : TxnOutcome) (bs : List Byte) (h : P d) :
    P (classify g hd ctx r st o bs d) := by
  have final : ∀ o, P (endFailed g hd { ctx with stepData := [] } o d) := fun o => endConversation_framed hP hg _ _ _ _ h
  cases o with
  | ok => exact afterSuccess_framed hP hg _ _ _ _ _ h
  | nakData =>
    unfold classify
    dsimp only
    split
    · exact afterSuccess_framed hP hg _ _ _ _ _ h
    · exact final _
  | nakAddress => exact afterRetryable_framed hP hg _ _ _ h
  | pecMismatch => exact afterRetryable_framed hP hg _ _ _ h
  | arbLost => exact afterArbLost_framed hP hg _ _ h
  | badCount => exact final _
  | stallTimeout => exact final _
  | busFault => exact final _

theorem placeStop_framed (h : P d) : P (placeStop g d) := hP.seg _ _ _ hg rfl rfl h

omit hP hg in
theorem rearm_frame (x : Segment) : x.rearm.config = x.config ∧ x.rearm.held = x.held := by
  unfold Segment.rearm
  split <;> exact ⟨rfl, rfl⟩

theorem rearm_framed (h : P d) : P (d.updSeg g Segment.rearm) := hP.seg _ _ _ hg (rearm_frame _).1 (rearm_frame _).2 h

theorem endSweep_framed (h : P d) : P (endSweep g d) := hP.seg _ _ _ hg rfl rfl h

theorem sweepResponder_framed (a : Addr) (h : P d) : P (sweepResponder g a d) := by
  unfold sweepResponder
  refine hP.seg _ _ _ hg (rearm_frame _).1 (rearm_frame _).2 ?_
  split
  · exact hP.parts (ackEvent_slotsKept ..) (post_framed hP _ h)
  · exact post_framed hP _ h

theorem sweepEmpty_framed (h : P d) : P (sweepEmpty g d) := by
  unfold sweepEmpty
  dsimp only
  split
  · exact hP.seg _ _ _ hg rfl rfl h
  · split
    · exact hP.seg _ _ _ hg rfl rfl h
    · exact post_framed hP _ (hP.seg _ _ _ hg rfl rfl h)

theorem sweepEnds_framed (n : Option Nat) (bs : List Byte) (h : P d) : P (sweepEnds g n bs d) := by
  unfold sweepEnds
  split
  · exact endSweep_framed hP hg (sweepResponder_framed hP hg _ h)
  · exact endSweep_framed hP hg (sweepEmpty_framed hP hg h)

theorem enterFault_framed (k : FaultKind) (r : Option (Handle × Nat)) (b : Option Nat) (h : P d) : P (enterFault g k r b d) :=
  hP.seg _ _ _ hg rfl rfl h

theorem ownStart_framed (pos : BusPos) (h : P d) : P (ownStart g pos d) := by
  rw [ownStart_eq]
  exact hP.seg _ _ _ hg rfl rfl h

theorem startConversation_framed (h : P d) : P (startConversation g d) := by
  unfold startConversation
  dsimp only
  split
  · split
    · exact h
    · next hd left hc =>
      obtain ⟨-, -, -, hheld, -⟩ := (choose_eq_some hc).1.rest
      exact enterStep_framed hP hg _ _ (hP.slot _ _ _ (hP.seg _ _ _ hg (choose_kept hc).2 hheld h))
  · exact h

theorem startSweep_framed (h : P d) : P (startSweep g d) := by
  unfold startSweep
  dsimp only
  split
  · exact hP.seg _ _ _ hg rfl rfl h
  · exact h

theorem makeSelection_framed (h : P d) : P (makeSelection g d) := by
  unfold makeSelection
  split
  · split
    · exact startSweep_framed hP hg h
    · exact startConversation_framed hP hg h
  · exact h
  · exact h

theorem mayArm_framed {f : Segment → Segment} (hf : ∀ x, (f x).config = x.config ∧ (f x).held = x.held) (h : P d) : P (mayArm g f d) := by
  have hu := hP.seg g f d hg (hf _).1 (hf _).2 h
  unfold mayArm
  dsimp only
  split
  · exact makeSelection_framed hP hg hu
  · exact hu

theorem becomesFree_framed (h : P d) : P (becomesFree g d) := by
  rw [becomesFree_eq]
  exact makeSelection_framed hP hg (hP.seg _ _ _ hg rfl rfl h)

/-! ### The events of an engine and of a sweep -/

theorem transactionEnds_framed (n : Option Nat) (bs : List Byte) (h : P d) : P (transactionEnds g n bs d) := by
  unfold transactionEnds
  split
  · split
    · unfold conversationTxnEnds
      dsimp only
      split
      · exact classify_framed hP hg _ _ _ _ _ _ (addressEvent_framed hP _ _ (placeStop_framed hP hg h))
      · exact h
    · exact sweepEnds_framed hP hg _ _ (placeStop_framed hP hg h)
    · exact h
  · exact h

theorem losesArbitration_framed (n : Nat) (h : P d) : P (losesArbitration g n d) := by
  unfold losesArbitration
  split
  · dsimp only
    split
    · exact afterArbLost_framed hP hg _ _ (addressEvent_framed hP _ _ (hP.seg _ _ _ hg rfl rfl h))
    · exact endSweep_framed hP hg (hP.seg _ _ _ hg rfl rfl (hP.seg _ _ _ hg rfl rfl h))
    · exact h
  · exact h

theorem retryGapExpires_framed (h : P d) : P (retryGapExpires g d) := by
  unfold retryGapExpires
  split
  · split
    · exact makeSelection_framed hP hg (enterWaitFree_framed hP hg _ _ h)
    · exact h
  · exact h
  · exact h

theorem intervalExpires_framed (h : P d) : P (intervalExpires g d) := by
  unfold intervalExpires
  split
  · split
    · exact makeSelection_framed hP hg (enterWaitFree_framed hP hg _ _ h)
    · exact h
  · exact h
  · exact h

theorem pauseExpires_framed (h : P d) : P (pauseExpires g d) := by
  unfold pauseExpires
  split
  · split
    · exact makeSelection_framed hP hg (enterStep_framed hP hg _ _ h)
    · exact h
  · exact h
  · exact h

theorem recoverySucceeds_framed (l : RecoveryLines) (h : P d) : P (recoverySucceeds g l d) := by
  unfold recoverySucceeds
  split
  · split
    · rw [recovers_eq]
      split
      · exact hP.seg _ _ _ hg rfl rfl (post_framed hP _ h)
      · exact hP.seg _ _ _ hg rfl rfl h
    · exact h
  · exact h

theorem recoveryFails_framed (l : RecoveryLines) (h : P d) : P (recoveryFails g l d) := by
  unfold recoveryFails
  split
  · split
    · exact post_framed hP _ (hP.seg _ _ _ hg rfl rfl (enterFault_framed hP hg _ _ _ h))
    · exact h
  · exact h

theorem freeTimeExpires_framed (h : P d) : P (freeTimeExpires g d) := by
  unfold freeTimeExpires
  split
  · exact becomesFree_framed hP hg h
  · exact h

omit hP hg in
theorem alrFell_frame (x : Segment) : x.alrFell.config = x.config ∧ x.alrFell.held = x.held := by
  rw [alrFell_eq]
  exact ⟨rfl, rfl⟩

theorem alrFalls_framed (h : P d) : P (alrFalls g d) :=
  mayArm_framed hP hg (fun x => by
    dsimp only
    split
    · exact ⟨rfl, rfl⟩
    · exact alrFell_frame _) h

theorem alrRises_framed (h : P d) : P (alrRises g d) := by
  refine hP.seg _ _ _ hg ?_ ?_ h <;> (dsimp only; split <;> rfl)

theorem holdoffExpires_framed (h : P d) : P (holdoffExpires g d) :=
  mayArm_framed hP hg (fun x => by
    split
    · split <;> exact ⟨rfl, rfl⟩
    · exact ⟨rfl, rfl⟩) h

end

/-! ## Receptions, and the faults that cut them (04, 06) -/

section
variable (hP : FramedInbox S P) (hg : S g)
include hP hg

theorem cutReception_framed (h : P d) : P (cutReception g d) := by
  rw [cutReception_eq]
  exact hP.seg _ _ _ hg rfl rfl (hP.inbox _ _ h)

theorem enterRecovering_framed (b : Bool) (h : P d) : P (enterRecovering g b d) := hP.seg _ _ _ hg rfl rfl (cutReception_framed hP hg h)

theorem wireFault_framed (k : FaultKind) (pos : BusPos) (h : P d) : P (wireFault g k pos d) := by
  have hF := hP.toFramed
  unfold wireFault
  split
  · exact h
  · exact enterRecovering_framed hP hg _ (endConversation_framed hF hg _ _ _ _
      (enterFault_framed hF hg _ _ _ (addressEvent_framed hF _ _ (ownStart_framed hF hg _ h))))
  · exact enterRecovering_framed hP hg _ (endSweep_framed hF hg
      (rearm_framed hF hg (enterFault_framed hF hg _ _ _ (ownStart_framed hF hg _ h))))

theorem lineWatchFires_framed (h : P d) : P (lineWatchFires g d) := by
  unfold lineWatchFires
  split
  · exact enterRecovering_framed hP hg _ (enterFault_framed hP.toFramed hg _ _ _ h)
  · exact wireFault_framed hP hg _ _ h

theorem stalls_framed (pos : BusPos) (h : P d) : P (stalls g pos d) := by
  unfold stalls
  split
  · exact wireFault_framed hP hg _ _ h
  · exact h

theorem faults_framed (site : FaultSite) (h : P d) : P (faults g site d) := by
  cases site <;> unfold faults <;> dsimp only <;> split
  · exact lineWatchFires_framed hP hg h
  · exact h
  · exact wireFault_framed hP hg _ _ h
  · exact h
  · exact wireFault_framed hP hg _ _ h
  · exact h

theorem receptionStalls_framed (h : P d) : P (receptionStalls g d) := by
  unfold receptionStalls
  split
  · dsimp only
    split
    · exact lineWatchFires_framed hP hg (cutReception_framed hP hg h)
    · exact cutReception_framed hP hg h
  · exact h

theorem idleTimeout_framed (h : P d) : P (idleTimeout g d) := by
  unfold idleTimeout
  split
  · exact becomesFree_framed hP.toFramed hg (cutReception_framed hP hg h)
  · exact h

theorem closeRecord_framed (h : P d) : P (closeRecord g d) := hP.seg _ _ _ hg rfl rfl h

omit hg in
theorem storeMessage_framed (k : InboxKind) (bs : List Byte) (b : Bool) (h : P d) : P (storeMessage g k bs b d) := by
  unfold storeMessage
  split
  · exact hP.inbox _ _ h
  · exact post_framed hP.toFramed _ (hP.inbox _ _ h)

theorem endReception_framed (h : P d) : P (endReception g d) := by
  unfold endReception
  split
  · refine closeRecord_framed hP hg ?_
    split
    · exact hP.inbox _ _ h
    · exact storeMessage_framed hP _ _ _ h
  · exact closeRecord_framed hP hg h
  · exact closeRecord_framed hP hg h
  · exact h

theorem startSeen_framed (h : P d) : P (startSeen g d) := by
  unfold startSeen
  split
  · exact hP.seg _ _ _ hg rfl rfl (endReception_framed hP hg h)
  · exact h

theorem stopSeen_framed (h : P d) : P (stopSeen g d) := by
  unfold stopSeen
  split
  · exact hP.seg _ _ _ hg rfl rfl (endReception_framed hP hg h)
  · exact h

theorem requestPlace_framed (k : InboxKind) (h : P d) : P (requestPlace g k d) := by
  unfold requestPlace
  split <;> exact hP.seg _ _ _ hg rfl rfl (hP.inbox _ _ h)

theorem judgeAddress_framed (b : Byte) (h : P d) : P (judgeAddress g b d) := by
  unfold judgeAddress
  dsimp only
  split
  · split
    · exact hP.seg _ _ _ hg rfl rfl h
    · exact requestPlace_framed hP hg _ h
  · split
    · exact requestPlace_framed hP hg _ h
    · exact closeRecord_framed hP hg h

theorem addressSeen_framed (b : Byte) (h : P d) : P (addressSeen g b d) := by
  unfold addressSeen
  split
  · exact judgeAddress_framed hP hg _ (endReception_framed hP hg h)
  · exact h

theorem takeDataByte_framed (b : Byte) (h : P d) : P (takeDataByte g b d) := by
  unfold takeDataByte
  split
  · split <;> exact hP.seg _ _ _ hg rfl rfl h
  · exact h
  · exact h
  · exact h

end

/-- Every event of a segment keeps what changes of that segment, the slots and the tables cannot break. -/
theorem segmentEvent_framed {c : Instr} (hc : Claims.eventSegment c = some g) (hP : FramedInbox (· = g) P) :
    ∃ f, eventAction c = some f ∧ ∀ d, P d → P (f d) := by
  have hF := hP.toFramed
  cases c <;> simp only [Claims.eventSegment, Option.some.injEq, reduceCtorEq] at hc <;> subst hc <;> refine ⟨_, rfl, fun d h => ?_⟩
  case conversationStart => exact startConversation_framed hF rfl h
  case sweepStart => exact startSweep_framed hF rfl h
  case transactionEnd => exact transactionEnds_framed hF rfl _ _ h
  case arbLost => exact losesArbitration_framed hF rfl _ h
  case retryGapExpiry => exact retryGapExpires_framed hF rfl h
  case intervalExpiry => exact intervalExpires_framed hF rfl h
  case pauseExpiry => exact pauseExpires_framed hF rfl h
  case clockStall => exact stalls_framed hP rfl _ h
  case busFault => exact faults_framed hP rfl _ h
  case receptionStall => exact receptionStalls_framed hP rfl h
  case recoverySuccess => exact recoverySucceeds_framed hF rfl _ h
  case recoveryFailure => exact recoveryFails_framed hF rfl _ h
  case busStartSeen => exact startSeen_framed hP rfl h
  case busStopSeen => exact stopSeen_framed hP rfl h
  case busFreeTimeExpiry => exact freeTimeExpires_framed hF rfl h
  case busIdleTimeout => exact idleTimeout_framed hP rfl h
  case addressByteJudged => exact addressSeen_framed hP rfl _ h
  case receivedDataByte => exact takeDataByte_framed hP rfl _ h
  case alrFall => exact alrFalls_framed hF rfl h
  case alrRise => exact alrRises_framed hF rfl h
  case sweepHoldoffExpiry => exact holdoffExpires_framed hF rfl h

end Sys2Proof.Machine
end

section
/-! PROOFS. What the timers' events and six of the requests leave alone (logs 4 and 35; 01 R16, 02 R36, 03 R55, 04 R80, 07 R133, R134). -/

namespace Sys2Proof.Machine

variable {P : Device → Prop} {d : Device}

/-! ## Conversations that end where they wait or run (02, 03, 05) -/

section
variable (hP : Framed (fun _ => True) P)
include hP

theorem leaveQueue_framed (i : SlotId) (h : P d) : P (leaveQueue i d) := hP.seg _ _ _ trivial rfl rfl h

theorem endQueued_framed (i : SlotId) (o : ConvOutcome) (h : P d) : P (endQueued i o d) :=
  finish_framed hP _ _ (leaveQueue_framed hP _ h)

theorem takeStopInWait_framed (i : SlotId) (h : P d) : P (takeStopInWait i d) := by
  unfold takeStopInWait
  dsimp only
  split
  · split
    · exact makeSelection_framed hP trivial (endConversation_framed hP trivial _ _ _ _ h)
    · exact h
  · exact h

theorem takeNote_framed (n : Option WireNote) (h : P d) : P (takeNote n d) := by
  unfold takeNote
  split
  · exact h
  · split
    · exact hP.seg _ _ _ trivial rfl rfl (ownStart_framed hP trivial _ h)
    · exact h

theorem assemblyExpires_framed (i : SlotId) (h : P d) : P (assemblyExpires i d) := by
  unfold assemblyExpires
  split
  · exact post_framed hP _ (releaseTarget_framed hP _ (hP.slot _ _ _ h))
  · exact h

theorem deadlineExpires_framed (i : SlotId) (h : P d) : P (deadlineExpires i d) := by
  unfold deadlineExpires
  split
  · split
    · exact endQueued_framed hP _ _ h
    · exact takeStopInWait_framed hP _ (setStop_framed hP _ _ (hP.slot _ _ _ h))
    · exact h
    · exact h
    · exact h
  · exact h

/-! ## Due evaluation (07 R130, R139 to R142) -/

theorem queueConversation_framed (i : SlotId) (h : P d) : P (queueConversation i d) := by
  have kept : ∀ (c : Class) (hd : Handle) (x : Segment), (x.enqueue c hd).config = x.config ∧ (x.enqueue c hd).held = x.held := by
    intro c hd x
    cases c <;> exact ⟨rfl, rfl⟩
  exact hP.seg _ _ _ trivial (kept ..).1 (kept ..).2 (hP.slot _ _ _ h)

theorem setPoll_framed (x : Bank) (k : PollId) (e : Option PollEntry) (h : P d) : P (d.setPoll x k e) :=
  hP.parts (setPoll_slotsKept ..) h

theorem createInstance_framed (x : Bank) (k : PollId) (e : PollEntry) (i : SlotId) (h : P d) : P (createInstance x k e i d) :=
  setPoll_framed hP _ _ _ (queueConversation_framed hP _ (hP.parts (raiseTarget_slotsKept ..) (hP.slot _ _ _ h)))

theorem handleDue_framed (x : Bank) (k : PollId) (e : PollEntry) (h : P d) : P (handleDue x k e d) := by
  have first : ∀ (b : Bool) (r : ReportBody), P (if b then d else post r d) := fun b r => by
    cases b
    · exact post_framed hP r h
    · exact h
  unfold handleDue
  split
  · refine setPoll_framed hP _ _ _ ?_
    split
    · exact post_framed hP _ h
    · exact h
  · split
    · exact setPoll_framed hP _ _ _ (first ..)
    · split
      · exact setPoll_framed hP _ _ _ (first ..)
      · exact createInstance_framed hP _ _ _ _ h

theorem evaluateFrame_framed (h : P d) : P (evaluateFrame d) := by
  refine foldl_keeps _ (fun d k h => ?_) _ h
  unfold evaluateEntry
  split
  · exact h
  · split
    · exact handleDue_framed hP _ _ _ h
    · exact h

theorem selectAfterJoins_framed (before : Device) (h : P d) : P (selectAfterJoins before d) := by
  refine foldl_keeps _ (fun d g h => ?_) _ h
  unfold selectIfJoined
  split
  · exact h
  · exact makeSelection_framed hP trivial h

/-- A frame boundary changes the schedule itself too. -/
theorem frameBoundary_framed (hs : ∀ f d, P d → P (d.updSchedule f)) (h : P d) : P (frameBoundary d) := by
  unfold frameBoundary
  dsimp only
  refine hs _ _ (evaluateFrame_framed hP ?_)
  unfold swapIfPending
  split
  · exact hs _ _ (post_framed hP _ (hs (fun _ => _) _ (hs _ _ h)))
  · exact hs _ _ h

/-- The events of the pool's timers and of the frame timer. -/
theorem timerEvent_framed (hs : ∀ f d, P d → P (d.updSchedule f)) {c : Instr}
    (hc : c = .frameBoundary ∨ ∃ i, c = .assemblyExpiry i ∨ c = .deadlineExpiry i) : ∃ f, eventAction c = some f ∧ ∀ d, P d → P (f d) := by
  obtain rfl | ⟨i, rfl | rfl⟩ := hc
  · refine ⟨_, rfl, fun d h => ?_⟩
    split
    · exact selectAfterJoins_framed hP _ (frameBoundary_framed hP hs h)
    · exact h
  · exact ⟨_, rfl, fun d h => assemblyExpires_framed hP _ h⟩
  · exact ⟨_, rfl, fun d h => deadlineExpires_framed hP _ h⟩

/-! ## The owners of five requests -/

theorem requestCancelConversation_framed (body : List Byte) (h : P d) : P (requestCancelConversation body d).2 := by
  refine onConversation_keeps (fun i => ?_) h
  unfold cancelConversation
  split
  · exact releaseTarget_framed hP _ (hP.slot _ _ _ h)
  · exact endQueued_framed hP _ _ h
  · exact takeStopInWait_framed hP _ (setStop_framed hP _ _ h)
  · exact h
  · exact h

theorem requestFlushSegment_framed (body : List Byte) (h : P d) : P (requestFlushSegment body d).2 := by
  refine onSegment_keeps (fun g => hP.seg _ _ _ trivial rfl rfl ?_) h
  exact foldl_keeps _ (fun d x h => finish_framed hP _ _ (hP.seg g (Segment.dequeue x) d trivial rfl rfl h)) _ h

theorem withdrawWaiting_framed (i : TargetId) (k : SlotId) (h : P d) : P (withdrawWaiting i d k) := by
  unfold withdrawWaiting
  split
  · split
    · exact finish_framed hP _ _ h
    · exact endQueued_framed hP _ _ h
    · exact h
    · exact h
    · exact h
  · exact h

theorem withdrawForced_framed (i : TargetId) (h : P d) : P (withdrawForced i d).2 := by
  have cleared : P ((List.finRange 48).foldl (fun d k =>
      if (d.poll d.schedule.shadow k).any fun e => e.config.target == i then clearShadowEntry k d else d) d) := by
    refine foldl_keeps _ (fun d k h => ?_) _ h
    split
    · exact hP.parts (clearShadowEntry_slotsKept ..) h
    · exact h
  have stopped : ∀ (l : List SlotId) (d : Device), P d → P (l.foldl (fun d k => setStop k .withdrawn d) d) :=
    fun l _ h => foldl_keeps _ (fun _ k h => setStop_framed hP k _ h) l h
  unfold withdrawForced
  split
  · exact h
  · split
    · exact h
    · have waited := foldl_keeps _ (fun _ k h => withdrawWaiting_framed hP i k h) (List.finRange 32) cleared
      dsimp only
      split
      · exact hP.parts (updEntry_slotsKept ..) (stopped _ _ waited)
      · dsimp only
        refine foldl_keeps _ (fun _ k h => takeStopInWait_framed hP k h) _ (hP.parts (updEntry_slotsKept ..) ?_)
        exact stopped _ _ waited

theorem requestWithdrawTarget_framed (body : List Byte) (h : P d) : P (requestWithdrawTarget body d).2 := by
  have normal : ∀ i, P (withdrawNormal i d).2 := fun i => by
    unfold withdrawNormal
    split
    · exact hP.parts (updEntry_slotsKept ..) h
    · exact h
  unfold requestWithdrawTarget
  split
  · exact h
  · split
    · exact h
    · split
      · exact h
      · split
        · exact h
        · split
          · exact normal _
          · exact withdrawForced_framed hP _ h

theorem clearShadow_framed (h : P d) : P (clearShadow d) :=
  foldl_keeps _ (fun _ k h => hP.parts (clearShadowEntry_slotsKept k _) h) _ h

theorem requestClearShadow_framed (body : List Byte) (h : P d) : P (requestClearShadow body d).2 := by
  have cleared := clearShadow_framed hP h
  unfold requestClearShadow
  by_cases hs : d.schedule.swapPending = true
  · rw [if_pos hs]
    exact h
  · rw [if_neg hs]
    dsimp only
    exact cleared

theorem copyEntry_framed (k : PollId) (h : P d) : P (copyEntry d k) := by
  unfold copyEntry
  split
  · exact h
  · exact hP.parts (writeShadowEntry_slotsKept ..) h

theorem requestCopyActive_framed (body : List Byte) (h : P d) : P (requestCopyActive body d).2 := by
  have copied := foldl_keeps _ (fun _ k h => copyEntry_framed hP k h) (List.finRange 48) (clearShadow_framed hP h)
  unfold requestCopyActive
  by_cases hs : d.schedule.swapPending = true
  · rw [if_pos hs]
    exact h
  · rw [if_neg hs]
    dsimp only
    exact copied

end

/-! ## RESET_SEGMENT, which may cut a reception (04 R80, 06 R115) -/

theorem requestResetSegment_framed (hP : FramedInbox (fun _ => True) P) (body : List Byte) (h : P d) : P (requestResetSegment body d).2 := by
  have hF := hP.toFramed
  have aborted : ∀ g, P (abortWork g d) := fun g => by
    unfold abortWork
    split
    · exact h
    · exact endSweep_framed hF trivial h
    · exact endConversation_framed hF trivial _ _ _ _ (addressEvent_framed hF _ _ h)
  refine onSegment_keeps (fun g => ?_) h
  dsimp only
  split
  · exact h
  · exact enterRecovering_framed hP trivial _ (hF.seg _ _ _ trivial rfl rfl (aborted g))

/-! ## Requests at the port (09 R164) -/

/-- The owners of the six requests; RESET_SEGMENT may change the inbox. -/
theorem owner_framed {k : RequestKind}
    (hk : k = .cancelConversation ∨ k = .flushSegment ∨ k = .resetSegment ∨ k = .withdrawTarget ∨ k = .clearShadow ∨ k = .copyActive)
    (hP : Framed (fun _ => True) P) (hi : k = .resetSegment → ∀ f d, P d → P (d.updInbox f)) (body : List Byte) (h : P d) :
    P (owner k body d).2 := by
  obtain rfl | rfl | rfl | rfl | rfl | rfl := hk
  · exact requestCancelConversation_framed hP body h
  · exact requestFlushSegment_framed hP body h
  · exact requestResetSegment_framed ⟨hP, hi rfl⟩ body h
  · exact requestWithdrawTarget_framed hP body h
  · exact requestClearShadow_framed hP body h
  · exact requestCopyActive_framed hP body h

/-- An answer does what the owner does, or nothing. -/
theorem answerRequest_keeps {k : RequestKind} {body : List Byte} (ho : P (owner k body d).2) (h : P d) : P (answerRequest k body d).2 := by
  unfold answerRequest
  split
  · exact h
  · split
    · exact ho
    · exact h

/-- An accepted request is answered, whatever its length (09 R164, cases 2 to 4). -/
theorem request_replied {c : Instr} {k : RequestKind} {tag : Byte} {body : List Byte} {s : State} {o : Outbound}
    (hc : requestOf c = some (k, tag, body)) (hb : body.length ≤ 60) (ha : accepts s.dev body.length o = true) :
    ∃ r, exec c s = .next { s with dev := pushReply r (answerRequest k body (found o (takeNote (noteOf c) s.dev))).2 } := by
  simp only [accepts, listens, Bool.and_eq_true, beq_iff_eq, decide_eq_true_eq] at ha
  obtain ⟨⟨⟨⟨hactive, hhunt⟩, hafter⟩, hroom⟩, -⟩ := ha
  have hp := takeNote_port (noteOf c) s.dev
  rw [request_clocked hc]
  generalize takeNote (noteOf c) s.dev = d at hp ⊢
  rw [← hp] at hactive hhunt hafter hroom
  have hfull : (atDone o d).repliesFull = false := decide_eq_false (by show ¬ 4 ≤ d.port.replies.length; omega)
  rw [clockRequest_taken hactive hhunt k tag body hb hafter, takeRequest, hfull]
  exact ⟨_, rfl⟩

/-! ## The frames -/

/-- All that an event of a segment and the six requests leave alone below the port: the port itself, the pins, the schedule's own state, the
report mask and mark, every configuration and HELD. -/
structure RestKept (d t : Device) : Prop where
  port : t.port = d.port
  rstn : t.rstnLow = d.rstnLow
  own : t.schedule.own = d.schedule.own
  mask : t.reports.mask = d.reports.mask
  mark : t.reports.mark = d.reports.mark
  config : ∀ j, (t.seg j).config = (d.seg j).config
  held : ∀ j, (t.seg j).held = (d.seg j).held

theorem RestKept.refl (d : Device) : RestKept d d := ⟨rfl, rfl, rfl, rfl, rfl, fun _ => rfl, fun _ => rfl⟩

theorem RestKept.scheduling {t : Device} (h : RestKept d t) : Claims.schedulingKept d t := by
  have own := h.own
  simp only [Schedule.own, Prod.mk.injEq] at own
  obtain ⟨running, frameLength, frame, timer, active, swapPending⟩ := own
  exact ⟨running, timer, frame, frameLength, active, swapPending, h.mask, h.mark⟩

/-- What the port has taken in does not tell the two devices apart. -/
theorem RestKept.found {t : Device} (h : RestKept d t) (o : Outbound) : RestKept (found o d) (found o t) where
  port := by rw [Machine.found, countAccepted, atDone, updPort_port, updPort_port, h.port]; rfl
  rstn := h.rstn
  own := h.own
  mask := h.mask
  mark := h.mark
  config := h.config
  held := h.held

theorem RestKept.updSeg {t : Device} (h : RestKept d t) {g : SegId} {f : Segment → Segment} (hc : (f (t.seg g)).config = (t.seg g).config)
    (hh : (f (t.seg g)).held = (t.seg g).held) : RestKept d (t.updSeg g f) where
  port := h.port
  rstn := h.rstn
  own := h.own
  mask := h.mask
  mark := h.mark
  config j := by
    rw [updSeg_seg]
    split
    · next e => exact e ▸ hc.trans (h.config g)
    · exact h.config j
  held j := by
    rw [updSeg_seg]
    split
    · next e => exact e ▸ hh.trans (h.held g)
    · exact h.held j

theorem restKept_framed (S : SegId → Prop) (d : Device) : FramedInbox S (RestKept d) where
  parts k h :=
    ⟨k.port.trans h.port, k.rstn.trans h.rstn, k.own.trans h.own, k.mask.trans h.mask, k.mark.trans h.mark,
      fun j => (congrArg _ (k.seg j)).trans (h.config j), fun j => (congrArg _ (k.seg j)).trans (h.held j)⟩
  slot _ _ _ h := ⟨h.port, h.rstn, h.own, h.mask, h.mark, h.config, h.held⟩
  seg _ _ _ _ hc hh h := h.updSeg hc hh
  inbox _ _ h := ⟨h.port, h.rstn, h.own, h.mask, h.mark, h.config, h.held⟩

/-- The other segments are as they were. -/
theorem otherSegments_framed (g : SegId) (d : Device) : FramedInbox (· = g) fun t => ∀ j, j ≠ g → t.seg j = d.seg j where
  parts k h j hj := (k.seg j).trans (h j hj)
  slot _ _ _ h := h
  seg _ f t hi _ _ h j hj := (updSeg_seg_other t f (hi.symm ▸ hj)).trans (h j hj)
  inbox _ _ h := h

theorem inbox_framed (S : SegId → Prop) (x : Inbox) : Framed S fun t => t.inbox = x where
  parts k h := k.inbox.trans h
  slot _ _ _ h := h
  seg _ _ _ _ _ _ h := h

/-- What a timer's event leaves alone: the port, the pins, the inbox, the report mask and mark. -/
structure OutsideKept (d t : Device) : Prop where
  port : t.port = d.port
  rstn : t.rstnLow = d.rstnLow
  inbox : t.inbox = d.inbox
  mask : t.reports.mask = d.reports.mask
  mark : t.reports.mark = d.reports.mark

theorem outsideKept_framed (S : SegId → Prop) (d : Device) : Framed S (OutsideKept d) where
  parts k h := ⟨k.port.trans h.port, k.rstn.trans h.rstn, k.inbox.trans h.inbox, k.mask.trans h.mask, k.mark.trans h.mark⟩
  slot _ _ _ h := ⟨h.port, h.rstn, h.inbox, h.mask, h.mark⟩
  seg _ _ _ _ _ _ h := ⟨h.port, h.rstn, h.inbox, h.mask, h.mark⟩

/-! ## The three kinds of command -/

/-- An event is its action on the device. -/
theorem exec_event_next {c : Instr} {f : Device → Device} {s t : State} (hc : eventAction c = some f) (ht : exec c s = .next t) :
    t = { s with dev := f s.dev } := by
  rw [exec_event hc] at ht
  exact (Host.Outcome.next.inj ht).symm

theorem segmentEvent_frame {c : Instr} {g : SegId} {s t : State} (hc : Claims.eventSegment c = some g) (ht : exec c s = .next t) :
    RestKept s.dev t.dev ∧ (∀ j, j ≠ g → t.dev.seg j = s.dev.seg j) ∧ t.pending = s.pending := by
  obtain ⟨f, hf, hrest⟩ := segmentEvent_framed hc (restKept_framed _ s.dev)
  obtain ⟨f', hf', hother⟩ := segmentEvent_framed hc (otherSegments_framed g s.dev)
  obtain rfl : f = f' := Option.some.inj (hf.symm.trans hf')
  rw [exec_event_next hf ht]
  exact ⟨hrest _ (.refl _), hother _ fun _ _ => rfl, rfl⟩

theorem timerEvent_frame {c : Instr} {s t : State} (hc : c = .frameBoundary ∨ ∃ i, c = .assemblyExpiry i ∨ c = .deadlineExpiry i)
    (ht : exec c s = .next t) : OutsideKept s.dev t.dev ∧ t.pending = s.pending := by
  obtain ⟨f, hf, hkept⟩ := timerEvent_framed (outsideKept_framed _ s.dev)
    (fun _ _ h => ⟨h.port, h.rstn, h.inbox, h.mask, h.mark⟩) hc
  rw [exec_event_next hf ht]
  exact ⟨hkept _ ⟨rfl, rfl, rfl, rfl, rfl⟩, rfl⟩

theorem request_frame {c : Instr} {k : RequestKind} {tag : Byte} {body : List Byte} {s t : State} {o : Outbound}
    (hc : requestOf c = some (k, tag, body))
    (hk : k = .cancelConversation ∨ k = .flushSegment ∨ k = .resetSegment ∨ k = .withdrawTarget ∨ k = .clearShadow ∨ k = .copyActive)
    (hb : body.length ≤ 60) (ha : accepts s.dev body.length o = true) (ht : exec c s = .next t) :
    ∃ r u, t = { s with dev := pushReply r u } ∧ RestKept (found o s.dev) u ∧ (k ≠ .resetSegment → u.inbox = s.dev.inbox) := by
  obtain ⟨r, hr⟩ := request_replied hc hb ha
  have noted : RestKept s.dev (takeNote (noteOf c) s.dev) := takeNote_framed (restKept_framed _ _).toFramed _ (.refl _)
  have notedInbox : (takeNote (noteOf c) s.dev).inbox = s.dev.inbox := (takeNote_sameTables ..).2
  have hrest := restKept_framed (fun _ => True) (found o s.dev)
  refine ⟨r, _, (Host.Outcome.next.inj (hr.symm.trans ht)).symm, ?_, fun hne => ?_⟩
  · exact answerRequest_keeps (owner_framed hk hrest.toFramed (fun _ => hrest.inbox) body (noted.found o)) (noted.found o)
  · exact answerRequest_keeps (P := fun t => t.inbox = s.dev.inbox)
      (owner_framed hk (inbox_framed _ _) (fun e => absurd e hne) body notedInbox) notedInbox

/-- Settles O60: the actions of each kind of command keep the frame that belongs to the kind. -/
theorem commandsLeaveTheRestAlone : Obligations.CommandsLeaveTheRestAlone := by
  unfold Obligations.CommandsLeaveTheRestAlone
  refine ⟨fun c g s t hc ht => ?_, fun c s t hc ht => ?_, fun c k tag body s t o hc hk hb ha ht => ?_⟩
  · obtain ⟨rest, other, pending⟩ := segmentEvent_frame hc ht
    exact ⟨rest.port, rest.rstn, pending, other, rest.config g, rest.held g, rest.scheduling⟩
  · obtain ⟨kept, pending⟩ := timerEvent_frame hc ht
    exact ⟨kept.port, kept.rstn, pending, kept.inbox, kept.mask, kept.mark⟩
  · obtain ⟨r, u, rfl, rest, inbox⟩ := request_frame hc hk hb ha ht
    have port : (pushReply r u).port = (pushReply r (found o s.dev)).port := by
      rw [pushReply, pushReply, updPort_port, updPort_port, rest.port]
    exact ⟨⟨r, port⟩, rest.rstn, rfl, rest.scheduling, fun j => ⟨rest.config j, rest.held j⟩, inbox⟩

end Sys2Proof.Machine
end

section
/-! PROOFS. The events and the requests that are made of the actions of Laws/Closed.lean alone, gathered once: a closed property needs a proof of
its own for the others only. -/

namespace Sys2Proof.Machine

variable {P : Device → Prop} {d : Device}

/-- The events made of closed actions alone: all but the rows that end, judge or fill a reception (06) and the frame's (07). -/
def closedEvent : Instr → Bool
  | .busStartSeen _ => false
  | .busStopSeen _ => false
  | .addressByteJudged .. => false
  | .receivedDataByte .. => false
  | .frameBoundary => false
  | _ => true

theorem event_closed (hP : Closed P) {c : Instr} {f : Device → Device} (hf : eventAction c = some f) (hc : closedEvent c = true)
    (h : P d) : P (f d) := by
  cases c <;> simp only [eventAction, closedEvent, Option.some.injEq, reduceCtorEq] at hf hc <;> subst hf
  case assemblyExpiry => exact assemblyExpires_closed hP _ h
  case deadlineExpiry => exact deadlineExpires_closed hP _ h
  case conversationStart => exact startConversation_closed hP _ h
  case sweepStart => exact startSweep_closed hP _ h
  case transactionEnd => exact transactionEnds_closed hP _ _ _ h
  case arbLost => exact losesArbitration_closed hP _ _ h
  case retryGapExpiry => exact retryGapExpires_closed hP _ h
  case intervalExpiry => exact intervalExpires_closed hP _ h
  case pauseExpiry => exact pauseExpires_closed hP _ h
  case clockStall => exact stalls_closed hP _ _ h
  case busFault => exact faults_closed hP _ _ h
  case receptionStall => exact receptionStalls_closed hP _ h
  case recoverySuccess => exact recoverySucceeds_closed hP _ _ h
  case recoveryFailure => exact recoveryFails_closed hP _ _ h
  case busFreeTimeExpiry => exact freeTimeExpires_closed hP _ h
  case busIdleTimeout => exact idleTimeout_closed hP _ h
  case alrFall => exact alrFalls_closed hP _ h
  case alrRise => exact alrRises_closed hP _ h
  case sweepHoldoffExpiry => exact holdoffExpires_closed hP _ h

/-- The requests whose owners use closed actions alone. -/
def closedRequest : RequestKind → Bool
  | .restart => false
  | .linkStatus => false
  | .setAttention => false
  | .setReportMask => false
  | .addTarget => false
  | .modifyTarget => false
  | .configureSegment => false
  | .setFrame => false
  | .startSchedule => false
  | .stopSchedule => false
  | .commitBank => false
  | .fetchInbox => false
  | .inboxStatus => false
  | _ => true

theorem owner_closed (hP : Closed P) {k : RequestKind} (hk : closedRequest k = true) (body : List Byte) (h : P d) :
    P (owner k body d).2 := by
  cases k <;> simp only [closedRequest, reduceCtorEq] at hk
  case ping => exact h
  case withdrawTarget => exact requestWithdrawTarget_closed hP body h
  case readTarget => exact (requestReadTarget_keeps body).symm ▸ h
  case listTargets => exact (requestListTargets_keeps body).symm ▸ h
  case segmentStatus => exact (requestSegmentStatus_keeps body).symm ▸ h
  case holdSegment => exact requestHoldSegment_closed hP body h
  case releaseSegment => exact requestReleaseSegment_closed hP body h
  case resetSegment => exact requestResetSegment_closed hP body h
  case flushSegment => exact requestFlushSegment_closed hP body h
  case readFault => exact requestReadFault_closed hP body h
  case openConversation => exact requestOpenConversation_closed hP body h
  case appendSteps => exact requestAppendSteps_closed hP body h
  case submitConversation => exact requestSubmitConversation_closed hP body h
  case runConversation => exact requestRunConversation_closed hP body h
  case cancelConversation => exact requestCancelConversation_closed hP body h
  case conversationStatus => exact (requestConversationStatus_keeps body).symm ▸ h
  case fetchResult => exact requestFetchResult_closed hP body h
  case putPoll => exact requestPutPoll_closed hP body h
  case clearPoll => exact requestClearPoll_closed hP body h
  case clearShadow => exact requestClearShadow_closed hP body h
  case copyActive => exact requestCopyActive_closed hP body h
  case readPoll => exact (requestReadPoll_keeps body).symm ▸ h

end Sys2Proof.Machine
end

section
/-! PROOFS. The inbox law (06 R105, R107 to R109, R113, R114): what each action of a receiver does to the store and to the reservations. -/

namespace Sys2Proof.Machine

variable {d t : Device} {g : SegId}

/-! ## The store alone (06 R113) -/

/-- The clauses of the inbox law that speak of the inbox alone. -/
structure StoreLaw (x : Inbox) : Prop where
  places : x.entries.length + x.reserved ≤ Config.inboxPlaces
  distinct : x.entries.Pairwise fun e e' => ¬ e.same e'
  bytes : ∀ e ∈ x.entries, 1 ≤ e.bytes.length ∧ e.bytes.length ≤ Config.maxMessage
  repeats : ∀ e ∈ x.entries, 1 ≤ e.repeats ∧ e.repeats ≤ 255
  refusals : x.refusals ≤ 65535

theorem InboxLaw.store (h : InboxLaw d) : StoreLaw d.inbox := ⟨h.places, h.distinct, h.bytes, h.repeats, h.refusals⟩

theorem sameMessage_iff {k : InboxKind} {bs : List Byte} {e : InboxEntry} :
    e.sameMessage g k bs = true ↔ e.segment = g ∧ e.kind = k ∧ e.bytes = bs := by
  simp only [InboxEntry.sameMessage, Bool.and_eq_true, beq_iff_eq, and_assoc]

section
variable {x : Inbox}

theorem StoreLaw.released (h : StoreLaw x) : StoreLaw { x with reserved := x.reserved - 1 } :=
  { h with places := Nat.le_trans (Nat.add_le_add_left (Nat.sub_le ..) _) h.places }

theorem StoreLaw.reserving (h : StoreLaw x) (hf : x.freePlaces ≠ 0) : StoreLaw { x with reserved := x.reserved + 1 } :=
  { h with
    places := by
      show x.entries.length + (x.reserved + 1) ≤ Config.inboxPlaces
      unfold Inbox.freePlaces at hf
      omega }

theorem StoreLaw.refusing (h : StoreLaw x) : StoreLaw { x with refusals := satInc x.refusals } :=
  { h with refusals := Nat.min_le_right .. }

/-- A new message takes the place that was reserved for it. -/
theorem StoreLaw.appended (h : StoreLaw x) {k : InboxKind} {bs : List Byte} (tr : Bool) (hr : 0 < x.reserved) (hne : bs ≠ [])
    (hlen : bs.length ≤ Config.maxMessage) (hnew : ∀ e ∈ x.entries, e.sameMessage g k bs ≠ true) :
    StoreLaw { x with entries := x.entries ++ [⟨g, k, bs, tr, 1⟩], reserved := x.reserved - 1 } where
  places := by
    have := h.places
    rw [List.length_append, List.length_singleton]
    show x.entries.length + 1 + (x.reserved - 1) ≤ Config.inboxPlaces
    omega
  distinct := List.pairwise_append.mpr ⟨h.distinct, List.pairwise_singleton .., fun e he e' he' hs =>
    hnew e he (sameMessage_iff.mpr (by rwa [List.mem_singleton.mp he'] at hs))⟩
  bytes := List.forall_mem_append.mpr ⟨h.bytes, List.forall_mem_singleton.mpr ⟨List.length_pos_iff.mpr hne, hlen⟩⟩
  repeats := List.forall_mem_append.mpr ⟨h.repeats, List.forall_mem_singleton.mpr ⟨Nat.le_refl 1, Nat.le_add_left 1 254⟩⟩
  refusals := h.refusals

/-- A change of the entries one by one that leaves each one's message alone, its repeat count in range. -/
theorem StoreLaw.mapped (h : StoreLaw x) {f : InboxEntry → InboxEntry}
    (hf : ∀ e, (f e).segment = e.segment ∧ (f e).kind = e.kind ∧ (f e).bytes = e.bytes)
    (hr : ∀ e, 1 ≤ e.repeats ∧ e.repeats ≤ 255 → 1 ≤ (f e).repeats ∧ (f e).repeats ≤ 255) :
    StoreLaw { x with entries := x.entries.map f } where
  places := by
    rw [List.length_map]
    exact h.places
  distinct := List.pairwise_map.mpr (h.distinct.imp fun {e e'} hn hs => hn (by
    obtain ⟨h1, h2, h3⟩ := hf e
    obtain ⟨h1', h2', h3'⟩ := hf e'
    obtain ⟨s1, s2, s3⟩ := hs
    exact ⟨h1.symm.trans (s1.trans h1'), h2.symm.trans (s2.trans h2'), h3.symm.trans (s3.trans h3')⟩))
  bytes := List.forall_mem_map.mpr fun e he => by
    rw [(hf e).2.2]
    exact h.bytes e he
  repeats := List.forall_mem_map.mpr fun e he => hr e (h.repeats e he)
  refusals := h.refusals

/-- A message that is stored already is counted again (06 R114). -/
theorem StoreLaw.coalesced (h : StoreLaw x) (k : InboxKind) (bs : List Byte) (tr : Bool) : StoreLaw { x with
      entries := x.entries.map fun e => if e.sameMessage g k bs then e.again tr else e
      reserved := x.reserved - 1 } := by
  refine (h.mapped (f := fun e => if e.sameMessage g k bs then e.again tr else e) (fun e => ?_) fun e he => ?_).released
  · split <;> exact ⟨rfl, rfl, rfl⟩
  · split
    · exact ⟨Nat.le_min.mpr ⟨Nat.le_add_left .., by decide⟩, Nat.min_le_right ..⟩
    · exact he

theorem StoreLaw.fetched (h : StoreLaw x) {e : InboxEntry} {rest : List InboxEntry} (he : x.entries = e :: rest) :
    StoreLaw { x with entries := rest } where
  places := by
    have := h.places
    rw [he, List.length_cons] at this
    show rest.length + x.reserved ≤ _
    omega
  distinct := (List.pairwise_cons.mp (he ▸ h.distinct)).2
  bytes e' he' := h.bytes e' (he ▸ List.mem_cons_of_mem e he')
  repeats e' he' := h.repeats e' (he ▸ List.mem_cons_of_mem e he')
  refusals := h.refusals

end

/-! ## The store with the receptions -/

/-- The law reads the inbox and the reception records alone. -/
theorem inboxLaw_of_eq (h : InboxLaw d) (inbox : t.inbox = d.inbox) (reception : ∀ g, (t.seg g).reception = (d.seg g).reception) :
    InboxLaw t where
  places := inbox ▸ h.places
  reserved := by simp only [inbox, h.reserved, writeReceptions, reception]
  distinct := inbox ▸ h.distinct
  bytes := inbox ▸ h.bytes
  repeats := inbox ▸ h.repeats
  refusals := inbox ▸ h.refusals
  receiving g := reception g ▸ h.receiving g

theorem InboxLaw.reserved_pos (h : InboxLaw d) (hw : (d.seg g).reception.writes = true) : 0 < d.inbox.reserved :=
  h.reserved ▸ countP_finRange_pos (p := fun j => (d.seg j).reception.writes) hw

/-- The store changes, and its reservations go with the role of the one segment whose record changes. -/
theorem InboxLaw.changed (h : InboxLaw d) (hs : StoreLaw t.inbox) (other : ∀ j, j ≠ g → (t.seg j).reception = (d.seg j).reception)
    (hr : t.inbox.reserved + (d.seg g).reception.writes.toNat = d.inbox.reserved + (t.seg g).reception.writes.toNat)
    (hb : ∀ k bs tr, (t.seg g).reception = .write k bs tr → bs.length ≤ Config.maxMessage) : InboxLaw t where
  places := hs.places
  reserved := by
    have hc : writeReceptions t + _ = writeReceptions d + _ := countP_finRange_update (p := fun j => (d.seg j).reception.writes)
      (q := fun j => (t.seg j).reception.writes) g fun j hj => congrArg Reception.writes (other j hj)
    have := h.reserved
    omega
  distinct := hs.distinct
  bytes := hs.bytes
  repeats := hs.repeats
  refusals := hs.refusals
  receiving j := by
    by_cases hj : j = g
    · exact hj ▸ hb
    · rw [other j hj]
      exact h.receiving j

/-- The record of a receiver is written after a change of the store. -/
theorem InboxLaw.record (h : InboxLaw d) (hs : StoreLaw t.inbox) (hseg : ∀ j, t.seg j = d.seg j) (g : SegId) (r : Reception) (ack : Bool)
    (hr : t.inbox.reserved + (d.seg g).reception.writes.toNat = d.inbox.reserved + r.writes.toNat)
    (hb : ∀ k bs tr, r = .write k bs tr → bs.length ≤ Config.maxMessage) :
    InboxLaw (t.updSeg g fun x => { x with reception := r, ackDriven := ack }) := by
  refine h.changed (g := g) hs (fun j hj => ?_) ?_ ?_
  · rw [updSeg_seg_other _ _ hj, hseg]
  · rw [updSeg_seg_same]
    exact hr
  · rw [updSeg_seg_same]
    exact hb

theorem InboxLaw.close (h : InboxLaw d) (hs : StoreLaw t.inbox) (hseg : ∀ j, t.seg j = d.seg j) (g : SegId)
    (hr : t.inbox.reserved + (d.seg g).reception.writes.toNat = d.inbox.reserved) : InboxLaw (closeRecord g t) :=
  h.record hs hseg g .nothing false hr nofun

/-- A record that holds no reservation closes. -/
theorem InboxLaw.closeUnreserved (h : InboxLaw d) (hw : (d.seg g).reception.writes = false) : InboxLaw (closeRecord g d) :=
  h.close h.store (fun _ => rfl) g (by rw [hw]; rfl)

/-! ## The end of a reception (06 R109, R110, R114) -/

theorem storeMessage_seg (g : SegId) (k : InboxKind) (bs : List Byte) (tr : Bool) (d : Device) (j : SegId) :
    (storeMessage g k bs tr d).seg j = d.seg j := by
  unfold storeMessage
  split <;> rfl

theorem storeMessage_reserved (g : SegId) (k : InboxKind) (bs : List Byte) (tr : Bool) (d : Device) :
    (storeMessage g k bs tr d).inbox.reserved = d.inbox.reserved - 1 := by
  unfold storeMessage
  split <;> rfl

theorem storeMessage_store {k : InboxKind} {bs : List Byte} (tr : Bool) (hs : StoreLaw d.inbox) (hr : 0 < d.inbox.reserved)
    (hne : bs ≠ []) (hlen : bs.length ≤ Config.maxMessage) : StoreLaw (storeMessage g k bs tr d).inbox := by
  unfold storeMessage
  split
  · exact hs.coalesced k bs tr
  · next hnew => exact hs.appended tr hr hne hlen fun e he hsame => hnew (List.any_eq_true.mpr ⟨e, he, hsame⟩)

/-- A write reception ends: its place is released, or filled with the message. -/
theorem endReception_write {k : InboxKind} {bs : List Byte} {tr : Bool} (h : (d.seg g).reception = .write k bs tr) :
    endReception g d = closeRecord g (if bs = [] then releasePlace d else storeMessage g k bs tr d) := by
  simp only [endReception, h, List.isEmpty_iff]

theorem endReception_inboxLaw (h : InboxLaw d) (g : SegId) : InboxLaw (endReception g d) := by
  cases hr : (d.seg g).reception with
  | write k bs tr =>
    have hw : (d.seg g).reception.writes = true := by rw [hr]; rfl
    have hpos := h.reserved_pos hw
    have hplace : d.inbox.reserved - 1 + (d.seg g).reception.writes.toNat = d.inbox.reserved := by
      rw [hw]
      exact Nat.sub_add_cancel hpos
    rw [endReception_write hr]
    split
    · exact h.close (t := releasePlace d) h.store.released (fun _ => rfl) g hplace
    · next hne =>
      exact h.close (storeMessage_store tr h.store hpos hne (h.receiving g k bs tr hr)) (storeMessage_seg g k bs tr d) g
        (by rw [storeMessage_reserved, hplace])
  | directRead n =>
    simp only [endReception, hr]
    exact h.closeUnreserved (by rw [hr]; rfl)
  | passive =>
    simp only [endReception, hr]
    exact h.closeUnreserved (by rw [hr]; rfl)
  | nothing =>
    simp only [endReception, hr]
    exact h

theorem cutReception_inboxLaw (h : InboxLaw d) (g : SegId) : InboxLaw (cutReception g d) := by
  have hseg : ((cutReception g d).seg g).reception = .nothing := by
    rw [cutReception_eq, updSeg_seg_same]
    rfl
  have hinbox : (cutReception g d).inbox = Inbox.cut (d.seg g).reception d.inbox := by
    rw [cutReception_eq]
    rfl
  refine h.changed (g := g) ?_ (fun j hj => congrArg _ (cutReception_seg_other hj d)) ?_ fun k bs tr e => ?_
  · rw [hinbox, Inbox.cut]
    split
    · exact h.store.released
    · exact h.store
  · rw [hseg, hinbox, Inbox.cut]
    split
    · next hw =>
      rw [hw]
      exact Nat.sub_add_cancel (h.reserved_pos hw)
    · next hw =>
      rw [Bool.not_eq_true] at hw
      rw [hw]
      rfl
  · rw [hseg] at e
    exact nomatch e

/-- No record stands once a reception has ended. -/
theorem endReception_reception (g : SegId) (d : Device) : ((endReception g d).seg g).reception = .nothing := by
  unfold endReception
  split
  · rw [closeRecord, updSeg_seg_same]
  · rw [closeRecord, updSeg_seg_same]
  · rw [closeRecord, updSeg_seg_same]
  · assumption

/-! ## An address byte and a data byte (06 R106 to R108, R111) -/

theorem requestPlace_inboxLaw (h : InboxLaw d) (hn : (d.seg g).reception.writes = false) (k : InboxKind) :
    InboxLaw (requestPlace g k d) := by
  unfold requestPlace
  split
  · exact h.record (t := d.updInbox fun x => { x with refusals := satInc x.refusals }) h.store.refusing (fun _ => rfl) g
      .passive false (by rw [hn]; rfl) nofun
  · next hf =>
    refine h.record (t := d.updInbox fun x => { x with reserved := x.reserved + 1 }) (h.store.reserving hf) (fun _ => rfl) g
      (.write k [] false) true (by rw [hn]; rfl) fun _ _ _ e => ?_
    cases e
    exact Nat.zero_le _

theorem judgeAddress_inboxLaw (h : InboxLaw d) (hn : (d.seg g).reception.writes = false) (b : Byte) : InboxLaw (judgeAddress g b d) := by
  unfold judgeAddress
  dsimp only
  split
  · split
    · exact h.record h.store (fun _ => rfl) g (.directRead d.inbox.freePlaces) true (by rw [hn]; rfl) nofun
    · exact requestPlace_inboxLaw h hn _
  · split
    · exact requestPlace_inboxLaw h hn _
    · exact h.closeUnreserved hn

theorem addressSeen_inboxLaw (h : InboxLaw d) (g : SegId) (b : Byte) : InboxLaw (addressSeen g b d) := by
  unfold addressSeen
  split
  · exact judgeAddress_inboxLaw (endReception_inboxLaw h g) (by rw [endReception_reception]; rfl) b
  · exact h

theorem takeDataByte_inboxLaw (h : InboxLaw d) (g : SegId) (b : Byte) : InboxLaw (takeDataByte g b d) := by
  unfold takeDataByte
  split
  · next k bs tr hr =>
    have hlen := h.receiving g k bs tr hr
    split
    · next hroom =>
      refine h.record h.store (fun _ => rfl) g (.write k (bs ++ [b]) tr) true (by rw [hr]; rfl) fun _ _ _ e => ?_
      cases e
      rw [List.length_append]
      exact hroom.1
    · refine h.record h.store (fun _ => rfl) g (.write k bs true) false (by rw [hr]; rfl) fun _ _ _ e => ?_
      cases e
      exact hlen
  · exact h
  · exact h
  · exact h

/-! ## CONFIGURE_SEGMENT, which closes the record of a receiver that is inactive afterwards (04 R61, 06 R105) -/

theorem configure_reception (c : SegConfig) (x : Segment) :
    (x.configure c).reception = x.reception ∨ (x.configure c).reception = .nothing := by
  have hd : ∀ x : Segment, x.disarm.reception = x.reception := fun _ => rfl
  unfold Segment.configure
  dsimp only
  simp only [apply_ite Segment.reception, (alrFell_kept _).1, hd, ite_self]
  exact ite_eq_or_eq ..

theorem writes_of_notInProgress {r : Reception} (h : r.inProgress = false) : r.writes = false := by
  cases r with
  | write => exact nomatch h
  | nothing => rfl
  | directRead => rfl
  | passive => rfl

theorem requestConfigureSegment_inboxLaw (body : List Byte) (h : InboxLaw d) : InboxLaw (requestConfigureSegment body d).2 := by
  refine onSegment_keeps (fun g => ?_) h
  unfold configureSegment
  split
  · exact h
  · next c _ =>
    dsimp only
    split
    · next hc =>
      have hn := writes_of_notInProgress (configurable_iff.mp hc).2
      have hn' : ((d.seg g).configure c).reception.writes = false := by
        obtain e | e := configure_reception c (d.seg g) <;> rw [e]
        · exact hn
        · rfl
      split
      · split
        · exact h
        · refine h.changed (g := g) h.store (fun j hj => by rw [updSeg_seg_other _ _ hj]) ?_ fun k bs tr e => ?_
          · rw [updSeg_seg_same, hn, hn']
            rfl
          · rw [updSeg_seg_same] at e
            rw [e] at hn'
            exact nomatch hn'
      · exact h
    · exact h

/-! ## The events and the owners -/

/-- The inbox law is kept by every action of Laws/Closed. -/
theorem inboxLaw_closed : Closed InboxLaw where
  post _ _ _ h := inboxLaw_of_eq h rfl fun _ => rfl
  slot _ _ _ h := inboxLaw_of_eq h rfl fun _ => rfl
  entry _ _ _ _ h := inboxLaw_of_eq h rfl fun _ => rfl
  seg g f d hk h := inboxLaw_of_eq h rfl fun j => by
    rw [updSeg_seg]
    split
    · next e => exact e ▸ hk.1
    · rfl
  sched _ _ _ h := inboxLaw_of_eq h rfl fun _ => rfl
  cut g _ h := cutReception_inboxLaw h g

theorem inboxLaw_updSchedule (f : Schedule → Schedule) (d : Device) (h : InboxLaw d) : InboxLaw (d.updSchedule f) :=
  inboxLaw_of_eq h rfl fun _ => rfl

theorem inboxLaw_event (c : Instr) (f : Device → Device) (d : Device) (hf : eventAction c = some f) (h : InboxLaw d) : InboxLaw (f d) := by
  have hP := inboxLaw_closed
  have seen : ∀ g u, (∀ x, (u x : Segment).reception = x.reception) → InboxLaw ((endReception g d).updSeg g u) := fun g u hu =>
    inboxLaw_of_eq (endReception_inboxLaw h g) rfl fun j => by
      rw [updSeg_seg]
      split
      · exact hu _
      · rfl
  cases hc : closedEvent c with
  | true => exact event_closed hP hf hc h
  | false =>
    cases c <;> simp only [closedEvent, reduceCtorEq] at hc <;> simp only [eventAction, Option.some.injEq] at hf <;> subst hf
    case busStartSeen g =>
      unfold startSeen
      split
      · exact seen g _ fun _ => rfl
      · exact h
    case busStopSeen g =>
      unfold stopSeen
      split
      · exact seen g _ fun _ => rfl
      · exact h
    case addressByteJudged g b => exact addressSeen_inboxLaw h g b
    case receivedDataByte g b => exact takeDataByte_inboxLaw h g b
    case frameBoundary =>
      dsimp only
      split
      · exact selectAfterJoins_closed hP _ (frameBoundary_closed hP inboxLaw_updSchedule h)
      · exact h

theorem requestFetchInbox_inboxLaw (body : List Byte) (h : InboxLaw d) : InboxLaw (requestFetchInbox body d).2 := by
  unfold requestFetchInbox
  split
  · exact h
  · next e rest he => exact h.changed (g := 0) (h.store.fetched he) (fun _ _ => rfl) rfl (h.receiving 0)

theorem requestInboxStatus_inboxLaw (body : List Byte) (h : InboxLaw d) : InboxLaw (requestInboxStatus body d).2 := by
  unfold requestInboxStatus
  dsimp only
  split
  · exact { h with refusals := Nat.zero_le _ }
  · exact h

theorem inboxLaw_owner (k : RequestKind) (body : List Byte) (d : Device) (h : InboxLaw d) : InboxLaw (owner k body d).2 := by
  have hP := inboxLaw_closed
  have same : ∀ {t : Device}, t.inbox = d.inbox → t.segments = d.segments → InboxLaw t := fun e1 e2 =>
    inboxLaw_of_eq h e1 fun g => congrArg (fun v => (Vector.get v g).reception) e2
  cases hk : closedRequest k with
  | true => exact owner_closed hP hk body h
  | false =>
    cases k <;> simp only [closedRequest, reduceCtorEq] at hk
    case restart => exact same rfl rfl
    case linkStatus =>
      show InboxLaw (requestLinkStatus body d).2
      unfold requestLinkStatus
      dsimp only
      split <;> exact same rfl rfl
    case setAttention =>
      show InboxLaw (requestSetAttention body d).2
      unfold requestSetAttention
      split <;> exact same rfl rfl
    case setReportMask =>
      show InboxLaw (requestSetReportMask body d).2
      unfold requestSetReportMask
      dsimp only
      split <;> exact same rfl rfl
    case addTarget =>
      show InboxLaw (requestAddTarget body d).2
      unfold requestAddTarget
      split
      · split
        · dsimp only
          split
          · exact h
          · split
            · exact h
            · split
              · exact h
              · exact same rfl rfl
        · exact h
      · exact h
    case modifyTarget =>
      show InboxLaw (requestModifyTarget body d).2
      unfold requestModifyTarget
      split
      · exact h
      · split
        · exact h
        · split
          · exact h
          · split
            · exact h
            · exact same rfl rfl
    case configureSegment => exact requestConfigureSegment_inboxLaw body h
    case setFrame =>
      show InboxLaw (requestSetFrame body d).2
      unfold requestSetFrame
      split
      · split <;> exact same rfl rfl
      · exact h
    case startSchedule =>
      have hj : InboxLaw (selectAfterJoins d (startSchedule d)) :=
        selectAfterJoins_closed hP _ (startSchedule_closed hP inboxLaw_updSchedule h)
      show InboxLaw (requestStartSchedule body d).2
      unfold requestStartSchedule
      split
      · exact h
      · dsimp only
        exact hj
    case stopSchedule =>
      show InboxLaw (requestStopSchedule body d).2
      unfold requestStopSchedule
      dsimp only
      split
      · exact swapIfPending_closed hP (inboxLaw_updSchedule _ _ h)
      · exact h
    case commitBank =>
      show InboxLaw (requestCommitBank body d).2
      unfold requestCommitBank
      split
      · split
        · exact h
        · exact same rfl rfl
      · exact swapBanks_closed hP h
    case fetchInbox => exact requestFetchInbox_inboxLaw body h
    case inboxStatus => exact requestInboxStatus_inboxLaw body h

/-! ## The obligation -/

/-- A device with an empty inbox and no write reception, as a reset leaves it, meets the law. -/
theorem inboxLaw_deviceReset (q : ReportQueue) (d : Device) : InboxLaw (deviceReset q d) :=
  inboxLaw_of_eq inboxLaw_reset rfl fun g => by
    rw [deviceReset_seg, reset_seg]
    rfl

theorem inboxLaw_stepKept : StepKept InboxLaw where
  port _ _ h := inboxLaw_of_eq h rfl fun _ => rfl
  reports _ _ h := inboxLaw_of_eq h rfl fun _ => rfl
  rstn _ _ h := inboxLaw_of_eq h rfl fun _ => rfl
  reset := inboxLaw_deviceReset
  owner := inboxLaw_owner
  note n _ h := takeNote_closed inboxLaw_closed n h
  event := inboxLaw_event

/-- Settles O18: the law is kept by the port, a reset, each event and each owner's answer. -/
theorem everyStepKeepsTheInboxLaw : Obligations.EveryStepKeepsTheInboxLaw := fun _ _ h hs => step_kept inboxLaw_stepKept h hs

end Sys2Proof.Machine
end

section
/-! PROOFS. What the receiver makes of an address byte, of a data byte and of the end of a message (06 R106 to R109, R111, R114), and the requests
of the Alert Inbox (06 R115, R116). -/

namespace Sys2Proof.Machine

variable {d : Device} {g : SegId} {b : Byte}

/-! ## An address byte (06 R105 to R107, R111) -/

theorem receiverActive_iff {x : Segment} :
    x.receiverActive = true ↔ (x.state = .idle ∨ x.state = .active) ∧ x.config.ownAddress ≠ 0#7 := by
  simp only [Segment.receiverActive, Bool.and_eq_true, Bool.or_eq_true, beq_iff_eq, bne_iff_ne]

/-- A byte that no active receiver sees, or that the engine drives itself, is not judged. -/
theorem addressSeen_unjudged (h : (d.seg g).receiverActive ≠ true ∨ (d.seg g).work.onWire = true) : addressSeen g b d = d := by
  refine if_neg fun hj => ?_
  rw [Bool.and_eq_true, Bool.not_eq_true'] at hj
  exact h.elim (· hj.1) fun hw => absurd (hw.symm.trans hj.2) (by decide)

theorem addressSeen_judged (ha : (d.seg g).receiverActive = true) (hw : (d.seg g).work.onWire = false) :
    addressSeen g b d = judgeAddress g b (endReception g d) := by
  refine if_pos ?_
  rw [ha, hw]
  rfl

theorem judgeAddress_ownRead (ho : (b >>> 1).setWidth 7 = (d.seg g).config.ownAddress) (hr : b.getLsbD 0 = true) :
    judgeAddress g b d = d.updSeg g fun x => { x with reception := .directRead d.inbox.freePlaces, ackDriven := true } :=
  (if_pos ho).trans (if_pos hr)

theorem judgeAddress_ownWrite (ho : (b >>> 1).setWidth 7 = (d.seg g).config.ownAddress) (hr : b.getLsbD 0 = false) :
    judgeAddress g b d = requestPlace g .direct d :=
  (if_pos ho).trans (if_neg (Bool.not_eq_true _ ▸ hr))

theorem judgeAddress_broadcast (ho : (b >>> 1).setWidth 7 ≠ (d.seg g).config.ownAddress) (h0 : (b >>> 1).setWidth 7 = 0#7)
    (hb : (d.seg g).config.broadcast = true) (hr : b.getLsbD 0 = false) : judgeAddress g b d = requestPlace g .broadcast d :=
  (if_neg ho).trans (if_pos ⟨h0, hr, hb⟩)

theorem judgeAddress_other (ho : (b >>> 1).setWidth 7 ≠ (d.seg g).config.ownAddress)
    (h : ¬ ((b >>> 1).setWidth 7 = 0#7 ∧ (d.seg g).config.broadcast = true) ∨ b.getLsbD 0 = true) :
    judgeAddress g b d = closeRecord g d := by
  refine (if_neg ho).trans (if_neg fun ⟨h0, hr, hb⟩ => ?_)
  exact h.elim (· ⟨h0, hb⟩) fun hr' => absurd (hr'.symm.trans hr) (by decide)

theorem requestPlace_full {k : InboxKind} (h : d.inbox.freePlaces = 0) : requestPlace g k d =
    (d.updInbox fun x => { x with refusals := satInc x.refusals }).updSeg g fun x => { x with reception := .passive, ackDriven := false } :=
  if_pos h

theorem requestPlace_free {k : InboxKind} (h : 0 < d.inbox.freePlaces) : requestPlace g k d =
    (d.updInbox fun x => { x with reserved := x.reserved + 1 }).updSeg g fun x =>
      { x with reception := .write k [] false, ackDriven := true } :=
  if_neg (Nat.ne_of_gt h)

/-! ## A data byte (06 R108) -/

section
variable {k : InboxKind} {bs : List Byte} {tr : Bool}

theorem takeDataByte_room (h : (d.seg g).reception = .write k bs tr) (hl : bs.length < Config.maxMessage) (ht : tr = false) :
    takeDataByte g b d = d.updSeg g fun x => { x with reception := .write k (bs ++ [b]) false, ackDriven := true } := by
  subst ht
  rw [takeDataByte, h]
  exact if_pos ⟨hl, rfl⟩

theorem takeDataByte_over (h : (d.seg g).reception = .write k bs tr) (ho : Config.maxMessage ≤ bs.length ∨ tr = true) :
    takeDataByte g b d = d.updSeg g fun x => { x with reception := .write k bs true, ackDriven := false } := by
  rw [takeDataByte, h]
  refine if_neg fun ⟨hl, ht⟩ => ?_
  exact ho.elim (Nat.not_le.mpr hl) fun ht' => absurd (ht'.symm.trans ht) (by decide)

theorem takeDataByte_unreserved (h : (d.seg g).reception.writes = false) : takeDataByte g b d = d := by
  unfold takeDataByte
  split
  · next hr =>
    rw [hr] at h
    exact nomatch h
  · rfl
  · rfl
  · rfl

/-! ## A message at its end (06 R114) -/

theorem storeMessage_new (hnew : ∀ e ∈ d.inbox.entries, ¬ (e.segment = g ∧ e.kind = k ∧ e.bytes = bs)) :
    storeMessage g k bs tr d = post (.inbox g k bs.length)
      (d.updInbox fun x => { x with entries := x.entries ++ [⟨g, k, bs, tr, 1⟩], reserved := x.reserved - 1 }) := by
  refine if_neg fun hany => ?_
  obtain ⟨e, he, hs⟩ := List.any_eq_true.mp hany
  exact hnew e he (sameMessage_iff.mp hs)

/-- Entries that hold other messages are left alone. -/
theorem map_again_of_other {l : List InboxEntry} (h : ∀ e ∈ l, ¬ (e.segment = g ∧ e.kind = k ∧ e.bytes = bs)) :
    (l.map fun e => if e.sameMessage g k bs then e.again tr else e) = l :=
  (List.map_congr_left fun e he => if_neg fun hs => h e he (sameMessage_iff.mp hs)).trans (List.map_id' l)

theorem storeMessage_again {l r : List InboxEntry} {e : InboxEntry} (he : d.inbox.entries = l ++ e :: r)
    (hs : e.segment = g ∧ e.kind = k ∧ e.bytes = bs) (hother : ∀ e' ∈ l ++ r, ¬ (e'.segment = g ∧ e'.kind = k ∧ e'.bytes = bs)) :
    storeMessage g k bs tr d = d.updInbox fun x => { x with entries := l ++ e.again tr :: r, reserved := x.reserved - 1 } := by
  have hsame := sameMessage_iff.mpr hs
  obtain ⟨hl, hr⟩ := List.forall_mem_append.mp hother
  have hany : (d.inbox.entries.any (·.sameMessage g k bs)) = true :=
    List.any_eq_true.mpr ⟨e, he ▸ List.mem_append_right l List.mem_cons_self, hsame⟩
  refine (if_pos hany).trans ?_
  rw [Device.updInbox, he, List.map_append, List.map_cons, map_again_of_other hl, map_again_of_other hr, if_pos hsame]
  rfl

end

/-! ## A direct read (06 R111) -/

theorem directRead_sends {n : Nat} {acks : List Bool} (h : ∀ a ∈ acks, a = true) :
    (Reception.directRead n).sends acks = some (if acks.isEmpty then byte n else 0xFF#8) := if_pos (List.all_eq_true.mpr h)

theorem directRead_stops {n : Nat} {acks : List Bool} (h : false ∈ acks) : (Reception.directRead n).sends acks = none :=
  if_neg fun hall => absurd (List.all_eq_true.mp hall false h) (by decide)

/-! ## The requests of the Alert Inbox (06 R115, R116) -/

theorem requestFetchInbox_empty {body : List Byte} (h : d.inbox.entries = []) : requestFetchInbox body d = (refuse .empty, d) := by
  rw [requestFetchInbox, h]

theorem requestFetchInbox_oldest {body : List Byte} {e : InboxEntry} {rest : List InboxEntry} (h : d.inbox.entries = e :: rest) :
    requestFetchInbox body d =
      (⟨.ok, [byte e.segment.val, e.kind.code, flagByte e.truncated, byte e.repeats, byte rest.length] ++ e.bytes⟩,
       d.updInbox fun x => { x with entries := rest }) := by
  rw [requestFetchInbox, h]

theorem requestInboxStatus_eq (clear : Byte) : requestInboxStatus [clear] d =
    (⟨.ok, [byte d.inbox.entries.length, byte d.inbox.reserved] ++ le16 (BitVec.ofNat 16 d.inbox.refusals)⟩,
     if clear = 0#8 then d else d.updInbox fun x => { x with refusals := 0 }) := by
  have hflag : flagAt [clear] 0 = !decide (clear = 0#8) := rfl
  rw [requestInboxStatus, hflag]
  by_cases h : clear = 0#8 <;> simp [h]

/-! ## The obligations -/

/-- Settles O53: the address byte by whose it is, its direction and the free places, the data byte by the room that is left, the end by what the
store holds. -/
theorem receiverTakesPartByTheTable : Obligations.ReceiverTakesPartByTheTable := by
  refine ⟨fun s g b => ?_, fun s g b k bs tr hr => ⟨fun hl ht => ?_, fun ho => ?_⟩, fun s g b hw => ?_, fun n acks => ?_,
    fun r acks hr => ?_, fun d g k bs tr hr => ⟨fun hb => ?_, fun hb hnew => ?_, fun l e r hb he hs hother => ?_⟩⟩
  · intro x active d free c own broadcast becomes
    have hconfig : (d.seg g).config = x.config := by rw [(endReception_receptionOnly g s.dev).seg g]
    have seen : ∀ {t : Device}, addressSeen g b s.dev = t → exec c s = .next { s with dev := t } := exec_event_eq rfl
    refine ⟨fun h => seen (addressSeen_unjudged (h.imp_left (mt receiverActive_iff.mp))), fun ha hw => ?_⟩
    have judged : ∀ {t : Device}, judgeAddress g b d = t → exec c s = .next { s with dev := t } := fun ht =>
      seen ((addressSeen_judged (receiverActive_iff.mpr ha) hw).trans ht)
    simp only [own, broadcast, ← hconfig]
    refine ⟨fun ho hr => judged (judgeAddress_ownRead ho hr),
      fun ho hr hf => judged ((judgeAddress_ownWrite ho hr).trans (requestPlace_free hf)),
      fun ho ⟨h0, hb⟩ hr hf => judged ((judgeAddress_broadcast ho h0 hb hr).trans (requestPlace_free hf)), fun hto hr hf => ?_,
      fun ho h => judged (judgeAddress_other ho h)⟩
    by_cases ho : (b >>> 1).setWidth 7 = (d.seg g).config.ownAddress
    · exact judged ((judgeAddress_ownWrite ho hr).trans (requestPlace_full hf))
    · obtain ⟨h0, hb⟩ := hto.resolve_left ho
      exact judged ((judgeAddress_broadcast ho h0 hb hr).trans (requestPlace_full hf))
  · exact exec_event_eq rfl (takeDataByte_room hr hl ht)
  · exact exec_event_eq rfl (takeDataByte_over hr ho)
  · exact exec_event_eq rfl (takeDataByte_unreserved hw)
  · refine ⟨fun h => by subst h; rfl, fun hne hall => ?_, directRead_stops⟩
    rw [directRead_sends hall, if_neg fun he => hne (List.isEmpty_iff.mp he)]
  · cases r with
    | directRead n => exact absurd rfl (hr n)
    | nothing => rfl
    | write => rfl
    | passive => rfl
  · rw [endReception_write hr, if_pos hb]
    rfl
  · rw [endReception_write hr, if_neg hb, storeMessage_new hnew]
    rfl
  · rw [endReception_write hr, if_neg hb, storeMessage_again he hs hother]
    rfl

/-- Settles O54: FETCH_INBOX by whether an entry stands, INBOX_STATUS by its flag. -/
theorem inboxIsFetchedOldestFirst : Obligations.InboxIsFetchedOldestFirst := by
  refine ⟨fun s tag o ha => ?_, fun s tag clear o ha => ?_⟩
  · have fetched : ∀ {r u}, requestFetchInbox [] (found o s.dev) = (r, u) →
        exec (.fetchInbox tag []) s = replyTo s 0xD0#8 tag (r.status.code :: r.fields) u := fun h =>
      request_reply .fetchInbox [] _ rfl rfl rfl (Nat.zero_le _) ha rfl h
    exact ⟨fun he => fetched (requestFetchInbox_empty he), fun e rest he => fetched (requestFetchInbox_oldest he)⟩
  · exact request_reply .inboxStatus [clear] _ rfl rfl rfl (Nat.le_add_left 1 59) ha rfl (requestInboxStatus_eq clear)

end Sys2Proof.Machine
end

section
/-! PROOFS. The Poll Scheduler's own requests and the bank swap (07 R128, R129, R131, R136, R137), and the schedule law (07 R124, R127,
R128, R136). -/

namespace Sys2Proof.Machine

variable {d : Device} {body : List Byte}

/-! ## The bank swap (R137) -/

theorem sameQuestion_iff {x y : PollConfig} :
    sameQuestion x y = true ↔ x.target = y.target ∧ x.command = y.command ∧ x.length = y.length := by
  simp [sameQuestion, and_assoc]

theorem carryOver_unused (old : Option PollEntry) : carryOver old none = none := rfl

theorem carryOver_same {e n : PollEntry} (h : sameQuestion e.config n.config = true) :
    carryOver (some e) (some n) = some ⟨n.config, e.lastValue, e.failing, 0, false, none⟩ := if_pos h

/-- Nothing is carried over from an index that was unused or asked something else. -/
theorem carryOver_fresh {old : Option PollEntry} {n : PollEntry} (h : ∀ e, old = some e → sameQuestion e.config n.config ≠ true) :
    carryOver old (some n) = some (.fresh n.config) := by
  cases old with
  | none => rfl
  | some e => exact if_neg (h e rfl)

/-- The swap gives the new active bank its carried-over entries and leaves the old one as it is. -/
theorem swapBanks_poll (d : Device) (bank : Bank) (i : PollId) : (swapBanks d).poll bank i =
    if d.schedule.shadow = bank then carryOver (d.poll d.schedule.active i) (d.poll bank i) else d.poll bank i := by
  have hbank : Schedule.bank { d.schedule with active := d.schedule.shadow } bank = d.schedule.bank bank := by cases bank <;> rfl
  show ((Schedule.updBank _ _ _).bank bank).get i = _
  rw [updBank_bank, hbank]
  by_cases h : d.schedule.shadow = bank
  · rw [if_pos h, if_pos h, mapTable_get]
    rfl
  · rw [if_neg h, if_neg h]
    rfl

/-- The schedule's own state after a swap: the selector has changed. -/
theorem swapBanks_own (d : Device) : (swapBanks d).schedule.own = (d.schedule.running, d.schedule.frameLength, d.schedule.frame,
    d.schedule.timer, d.schedule.active.other, d.schedule.swapPending) := by
  obtain ⟨hrun, hlength, hframe, htimer, hactive, hpending⟩ := updBank_kept { d.schedule with active := d.schedule.shadow }
    d.schedule.shadow fun v => mapTable (fun i e => carryOver ((d.schedule.bank d.schedule.active).get i) e) v
  simp only [Schedule.own, Prod.mk.injEq]
  exact ⟨hrun, hlength, hframe, htimer, hactive, hpending⟩

theorem swapIfPending_none (h : d.schedule.swapPending = false) : swapIfPending d = d := if_neg (by simp [h])

theorem swapIfPending_made (h : d.schedule.swapPending = true) :
    swapIfPending d = (swapBanks d).updSchedule fun s => { s with swapPending := false } := if_pos h

/-- Settles O57: the new active bank index by index, the schedule's own state, and the rest as it was. -/
theorem swapCarriesOverEqualQuestions : Obligations.SwapCarriesOverEqualQuestions := by
  intro d old t
  have hown := swapBanks_own d
  simp only [Schedule.own, Prod.mk.injEq] at hown
  obtain ⟨hrun, hlength, hframe, htimer, hactive, hpending⟩ := hown
  have hpoll : ∀ i, t.poll old.other i = carryOver (d.poll old i) (d.poll old.other i) := fun i =>
    (swapBanks_poll d _ i).trans (if_pos rfl)
  refine ⟨hactive, hrun, htimer, hframe, hlength, hpending, rfl, rfl, rfl, rfl, rfl, rfl,
    fun i => (swapBanks_poll d old i).trans (if_neg (other_ne old)), fun i hn => ?_,
    fun i n hn => ⟨fun e he ht hc hl => ?_, fun hd => ?_⟩⟩
  · rw [hpoll, hn, carryOver_unused]
  · rw [hpoll, hn, he, carryOver_same (sameQuestion_iff.mpr ⟨ht, hc, hl⟩)]
  · rw [hpoll, hn, carryOver_fresh fun e he => mt sameQuestion_iff.mp (hd e he)]
    rfl

/-! ## The requests by the schedule's state (R128, R129, R131, R136) -/

theorem requestSetFrame_outOfRange (h : ¬ within 1 100 (byteAt body 0).toNat = true) :
    requestSetFrame body d = (refuse .badField, d) := if_neg h

theorem requestSetFrame_running (h : within 1 100 (byteAt body 0).toNat = true) (hr : d.schedule.running = true) :
    requestSetFrame body d = (refuse .scheduleRunning, d) := by rw [requestSetFrame, if_pos h, if_pos hr]

theorem requestSetFrame_stopped (h : within 1 100 (byteAt body 0).toNat = true) (hr : d.schedule.running = false) :
    requestSetFrame body d = (⟨.ok, []⟩, d.updSchedule fun s => { s with frameLength := (byteAt body 0).toNat }) := by
  rw [requestSetFrame, if_pos h, if_neg (by simp [hr])]

/-- The frame timer starts with the frame length that stood before the evaluation of frame 0. -/
theorem startSchedule_eq (d : Device) : startSchedule d =
    (evaluateFrame (d.updSchedule fun s => { s with frame := 0#32, running := true })).updSchedule fun s =>
      { s with timer := some d.schedule.frameLength } := by
  have hown := evaluateFrame_own (d.updSchedule fun s => { s with frame := 0#32, running := true })
  unfold startSchedule
  dsimp only
  generalize evaluateFrame _ = e at hown ⊢
  have hlength : e.schedule.frameLength = d.schedule.frameLength := congrArg (fun o => o.2.1) hown
  simp only [Device.updSchedule, hlength]

/-- The schedule's own state after the start: RUNNING, at frame 0, the timer started (R129). -/
theorem startSchedule_own (d : Device) : (startSchedule d).schedule.own =
    (true, d.schedule.frameLength, 0#32, some d.schedule.frameLength, d.schedule.active, d.schedule.swapPending) := by
  have hown := evaluateFrame_own (d.updSchedule fun s => { s with frame := 0#32, running := true })
  rw [startSchedule_eq]
  generalize evaluateFrame _ = e at hown ⊢
  simp only [Schedule.own, Prod.mk.injEq, updSchedule_schedule, true_and] at hown ⊢
  obtain ⟨hrun, hlength, hframe, -, hactive, hpending⟩ := hown
  exact ⟨hrun, hlength, hframe, hactive, hpending⟩

theorem requestStartSchedule_running (hr : d.schedule.running = true) : requestStartSchedule body d = (refuse .scheduleRunning, d) :=
  if_pos hr

theorem requestStartSchedule_stopped (hr : d.schedule.running = false) :
    requestStartSchedule body d = (⟨.ok, []⟩, selectAfterJoins d (startSchedule d)) := if_neg (by simp [hr])

theorem requestStopSchedule_stopped (hr : d.schedule.running = false) :
    requestStopSchedule body d = (⟨.ok, 0#8 :: le32 d.schedule.frame⟩, d) := by
  simp only [requestStopSchedule, hr, Bool.false_and, Bool.false_eq_true, if_false]
  rfl

/-- A stop in RUNNING makes the swap that is pending. -/
theorem requestStopSchedule_running (hr : d.schedule.running = true) : requestStopSchedule body d =
    (⟨.ok, flagByte d.schedule.swapPending :: le32 d.schedule.frame⟩,
     swapIfPending (d.updSchedule fun s => { s with running := false, timer := none })) := by
  simp only [requestStopSchedule, hr, Bool.true_and, if_true]

theorem requestStopSchedule_noSwap (hr : d.schedule.running = true) (hp : d.schedule.swapPending = false) :
    requestStopSchedule body d = (⟨.ok, flagByte false :: le32 d.schedule.frame⟩,
      d.updSchedule fun s => { s with running := false, timer := none }) := by
  simp only [requestStopSchedule_running hr, swapIfPending_none, updSchedule_schedule, hp]

theorem requestStopSchedule_swaps (hr : d.schedule.running = true) (hp : d.schedule.swapPending = true) :
    requestStopSchedule body d = (⟨.ok, flagByte true :: le32 d.schedule.frame⟩,
      (swapBanks (d.updSchedule fun s => { s with running := false, timer := none })).updSchedule fun s =>
        { s with swapPending := false }) := by
  simp only [requestStopSchedule_running hr, swapIfPending_made, updSchedule_schedule, hp]

theorem requestCommitBank_stopped (hr : d.schedule.running = false) :
    requestCommitBank body d = (⟨.ok, [d.schedule.shadow.code]⟩, swapBanks d) := if_neg (by simp [hr])

theorem requestCommitBank_running (hr : d.schedule.running = true) (hp : d.schedule.swapPending = false) :
    requestCommitBank body d = (⟨.pending, [d.schedule.shadow.code]⟩, d.updSchedule fun s => { s with swapPending := true }) := by
  rw [requestCommitBank, if_pos hr, if_neg (by simp [hp])]

theorem requestCommitBank_pending (hr : d.schedule.running = true) (hp : d.schedule.swapPending = true) :
    requestCommitBank body d = (refuse .swapPending, d) := by rw [requestCommitBank, if_pos hr, if_pos hp]

/-- Settles O56: each request by its check and by the state in which it finds the schedule. -/
theorem scheduleRequestsFollowItsState : Obligations.ScheduleRequestsFollowItsState := by
  refine ⟨fun s tag b o ha => ?_, fun s tag o ha => ?_⟩
  · have answered : ∀ {r u}, requestSetFrame [b] (found o s.dev) = (r, u) →
        exec (.setFrame tag [b]) s = replyTo s 0xC0#8 tag (r.status.code :: r.fields) u := fun h =>
      request_reply .setFrame [b] _ rfl rfl rfl (Nat.le_add_left 1 59) ha rfl h
    refine ⟨fun hout => answered (requestSetFrame_outOfRange fun hin => ?_),
      fun hlow hhigh hr => answered (requestSetFrame_running (within_iff.mpr ⟨hlow, hhigh⟩) hr),
      fun hlow hhigh hr => answered (requestSetFrame_stopped (within_iff.mpr ⟨hlow, hhigh⟩) hr)⟩
    have hrange : 1 ≤ b.toNat ∧ b.toNat ≤ 100 := within_iff.mp hin
    obtain rfl | habove := hout
    · exact absurd hrange (by decide)
    · omega
  · intro x d stopped
    have started : ∀ {r u}, requestStartSchedule [] d = (r, u) →
        exec (.startSchedule tag []) s = replyTo s 0xC1#8 tag (r.status.code :: r.fields) u := fun h =>
      request_reply .startSchedule [] _ rfl rfl rfl (Nat.zero_le _) ha rfl h
    have halted : ∀ {r u}, requestStopSchedule [] d = (r, u) →
        exec (.stopSchedule tag []) s = replyTo s 0xC2#8 tag (r.status.code :: r.fields) u := fun h =>
      request_reply .stopSchedule [] _ rfl rfl rfl (Nat.zero_le _) ha rfl h
    have committed : ∀ {r u}, requestCommitBank [] d = (r, u) →
        exec (.commitBank tag []) s = replyTo s 0xC7#8 tag (r.status.code :: r.fields) u := fun h =>
      request_reply .commitBank [] _ rfl rfl rfl (Nat.zero_le _) ha rfl h
    refine ⟨fun hr => started (requestStartSchedule_running hr), fun hr => ?_, fun hr => halted (requestStopSchedule_stopped hr),
      fun hr hp => halted (requestStopSchedule_noSwap hr hp), fun hr hp => halted (requestStopSchedule_swaps hr hp),
      fun hr => committed (requestCommitBank_stopped hr),
      fun hr hp => committed (requestCommitBank_running hr hp), fun hr hp => committed (requestCommitBank_pending hr hp)⟩
    rw [started (requestStartSchedule_stopped hr), startSchedule_eq]
    rfl

/-! ## The schedule law: what a change of the schedule needs to keep it (R124, R127, R128, R136) -/

/-- The law reads the schedule's own state alone. -/
theorem scheduleLaw_of_own {s : Schedule} {running pending : Bool} {n : Nat} {frame : Word} {timer : Option Nat} {active : Bank}
    (hown : s.own = (running, n, frame, timer, active, pending)) (ht : timer.isSome = running) (hp : pending = true → running = true)
    (hn : 1 ≤ n ∧ n ≤ 100) : ScheduleLaw s := by
  simp only [Schedule.own, Prod.mk.injEq] at hown
  obtain ⟨rfl, rfl, -, rfl, -, rfl⟩ := hown
  exact ⟨ht, hp, hn⟩

/-- A change that neither starts nor stops the schedule keeps the law. -/
theorem ScheduleLaw.kept {s s' : Schedule} (h : ScheduleLaw s) (hk : ScheduleKept s s') : ScheduleLaw s' := by
  obtain ⟨hrun, htimer, hlength, hpending⟩ := hk
  exact ⟨by rw [htimer, hrun, h.timer], fun hp => hrun.trans (h.pending (hpending hp)), hlength ▸ h.length⟩

/-- The schedule law is kept by every action of Laws/Closed. -/
theorem scheduleLaw_closed : Closed fun d => ScheduleLaw d.schedule where
  post _ _ _ h := h
  slot _ _ _ h := h
  entry _ _ _ _ h := h
  seg _ _ _ _ h := h
  sched _ _ hk h := h.kept hk
  cut g d h := (cutReception_receptionOnly g d).schedule ▸ h

/-! ## The schedule's own requests and its frame boundary -/

theorem requestSetFrame_scheduleLaw (body : List Byte) (h : ScheduleLaw d.schedule) : ScheduleLaw (requestSetFrame body d).2.schedule := by
  by_cases hin : within 1 100 (byteAt body 0).toNat = true
  · cases hr : d.schedule.running with
    | true => rwa [requestSetFrame_running hin hr]
    | false =>
      rw [requestSetFrame_stopped hin hr]
      exact { h with length := within_iff.mp hin }
  · rwa [requestSetFrame_outOfRange hin]

theorem requestStartSchedule_scheduleLaw (body : List Byte) (h : ScheduleLaw d.schedule) :
    ScheduleLaw (requestStartSchedule body d).2.schedule := by
  cases hr : d.schedule.running with
  | true => rwa [requestStartSchedule_running hr]
  | false =>
    have hlaw : ScheduleLaw (selectAfterJoins d (startSchedule d)).schedule :=
      scheduleLaw_of_own ((selectAfterJoins_own d _).trans (startSchedule_own d)) rfl (fun _ => rfl) h.length
    rw [requestStartSchedule_stopped hr]
    exact hlaw

/-- A stop makes a pending swap, so that none is pending in STOPPED. -/
theorem requestStopSchedule_scheduleLaw (body : List Byte) (h : ScheduleLaw d.schedule) :
    ScheduleLaw (requestStopSchedule body d).2.schedule := by
  cases hr : d.schedule.running with
  | true =>
    rw [requestStopSchedule_running hr]
    exact scheduleLaw_of_own (swapIfPending_own _) rfl nofun h.length
  | false => rwa [requestStopSchedule_stopped hr]

theorem requestCommitBank_scheduleLaw (body : List Byte) (h : ScheduleLaw d.schedule) :
    ScheduleLaw (requestCommitBank body d).2.schedule := by
  cases hr : d.schedule.running with
  | true =>
    cases hp : d.schedule.swapPending with
    | true => rwa [requestCommitBank_pending hr hp]
    | false =>
      rw [requestCommitBank_running hr hp]
      exact { h with pending := fun _ => hr }
  | false =>
    rw [requestCommitBank_stopped hr]
    exact swapBanks_closed scheduleLaw_closed h

/-- The timer that expires runs in RUNNING and is started again. -/
theorem frameBoundary_scheduleLaw (before : Device) (h : ScheduleLaw d.schedule) (hr : d.schedule.running = true) :
    ScheduleLaw (selectAfterJoins before (frameBoundary d)).schedule :=
  scheduleLaw_of_own ((selectAfterJoins_own before _).trans (frameBoundary_own d)) hr.symm nofun h.length

/-! ## The events and the owners that leave the schedule alone -/

theorem startSeen_schedule (g : SegId) (d : Device) : (startSeen g d).schedule = d.schedule := by
  unfold startSeen
  split
  · exact (endReception_receptionOnly g d).schedule
  · rfl

theorem stopSeen_schedule (g : SegId) (d : Device) : (stopSeen g d).schedule = d.schedule := by
  unfold stopSeen
  split
  · exact (endReception_receptionOnly g d).schedule
  · rfl

/-- The requests that change the schedule's own state (07 R128, R129, R131, R136). -/
def scheduleRequest : RequestKind → Bool
  | .setFrame => true
  | .startSchedule => true
  | .stopSchedule => true
  | .commitBank => true
  | _ => false

/-- The owners beside the closed ones and the scheduler's own act on the port, the report mask, the directory, a configuration or the
inbox. -/
theorem owner_schedule {k : RequestKind} (hk : closedRequest k = false) (hs : scheduleRequest k = false) (body : List Byte) (d : Device) :
    (owner k body d).2.schedule = d.schedule := by
  cases k <;> simp only [closedRequest, scheduleRequest, reduceCtorEq] at hk hs
  case restart => rfl
  case linkStatus =>
    show (requestLinkStatus body d).2.schedule = _
    unfold requestLinkStatus
    dsimp only
    split <;> rfl
  case setAttention =>
    show (requestSetAttention body d).2.schedule = _
    unfold requestSetAttention
    split <;> rfl
  case setReportMask =>
    show (requestSetReportMask body d).2.schedule = _
    unfold requestSetReportMask
    dsimp only
    split <;> rfl
  case addTarget =>
    show (requestAddTarget body d).2.schedule = _
    unfold requestAddTarget
    split
    · split
      · dsimp only
        split
        · rfl
        · split
          · rfl
          · split <;> rfl
      · rfl
    · rfl
  case modifyTarget =>
    show (requestModifyTarget body d).2.schedule = _
    unfold requestModifyTarget
    split
    · rfl
    · split
      · rfl
      · split
        · rfl
        · split <;> rfl
  case configureSegment =>
    show (requestConfigureSegment body d).2.schedule = _
    refine onSegment_keeps (P := fun t => t.schedule = d.schedule) (fun g => ?_) rfl
    unfold configureSegment
    split
    · rfl
    · dsimp only
      split
      · split
        · split <;> rfl
        · rfl
      · rfl
  case fetchInbox =>
    show (requestFetchInbox body d).2.schedule = _
    unfold requestFetchInbox
    split <;> rfl
  case inboxStatus =>
    show (requestInboxStatus body d).2.schedule = _
    unfold requestInboxStatus
    dsimp only
    split <;> rfl

/-! ## The obligation -/

theorem scheduleLaw_event (c : Instr) (f : Device → Device) (d : Device) (hf : eventAction c = some f) (h : ScheduleLaw d.schedule) :
    ScheduleLaw (f d).schedule := by
  cases hc : closedEvent c with
  | true => exact event_closed scheduleLaw_closed hf hc h
  | false =>
    cases c <;> simp only [closedEvent, reduceCtorEq] at hc <;> simp only [eventAction, Option.some.injEq] at hf <;> subst hf
    case busStartSeen g => exact (startSeen_schedule g d).symm ▸ h
    case busStopSeen g => exact (stopSeen_schedule g d).symm ▸ h
    case addressByteJudged g b => exact (addressSeen_receptionOnly g b d).schedule.symm ▸ h
    case receivedDataByte g b => exact (takeDataByte_receptionOnly g b d).schedule.symm ▸ h
    case frameBoundary =>
      dsimp only
      split
      · next hrun => exact frameBoundary_scheduleLaw d h (Bool.and_eq_true_iff.mp hrun).1
      · exact h

theorem scheduleLaw_owner (k : RequestKind) (body : List Byte) (d : Device) (h : ScheduleLaw d.schedule) :
    ScheduleLaw (owner k body d).2.schedule := by
  cases hk : closedRequest k with
  | true => exact owner_closed scheduleLaw_closed hk body h
  | false =>
    cases hs : scheduleRequest k with
    | false => rwa [owner_schedule hk hs]
    | true =>
      cases k <;> simp only [scheduleRequest, reduceCtorEq] at hs
      case setFrame => exact requestSetFrame_scheduleLaw body h
      case startSchedule => exact requestStartSchedule_scheduleLaw body h
      case stopSchedule => exact requestStopSchedule_scheduleLaw body h
      case commitBank => exact requestCommitBank_scheduleLaw body h

theorem scheduleLaw_stepKept : StepKept fun d => ScheduleLaw d.schedule where
  port _ _ h := h
  reports _ _ h := h
  rstn _ _ h := h
  reset _ _ := ⟨rfl, nofun, show 1 ≤ 10 ∧ 10 ≤ 100 by decide⟩
  owner := scheduleLaw_owner
  note n _ h := takeNote_closed scheduleLaw_closed n h
  event := scheduleLaw_event

/-- Settles O20: the law is kept by the port, a reset, each event and each owner's answer. -/
theorem everyStepKeepsTheScheduleLaw : Obligations.EveryStepKeepsTheScheduleLaw := fun _ _ h hs => step_kept scheduleLaw_stepKept h hs

end Sys2Proof.Machine
end

section
/-! PROOFS. The report queue: the posting rule (08 R150), the delivery of its head (08 R152, R153), and the law of its list (08 R148, R151)
under both. -/

namespace Sys2Proof.Machine

variable {q : ReportQueue} {b : ReportBody}

/-! ## The posting rule (R150) -/

theorem queuePost_masked (hb : b.maskedBy q.mask = true) : q.post b = q := if_pos hb

theorem queuePost_dropped (hb : b.maskedBy q.mask = false) (hm : q.marker ≠ none) :
    q.post b = { q with list := q.list.map Report.countLost } := by
  simp [ReportQueue.post, hb, Option.isSome_iff_ne_none.mpr hm]

theorem queuePost_room (hb : b.maskedBy q.mask = false) (hm : q.marker = none) (hl : q.list.length < 31) : q.post b = q.append b := by
  simp [ReportQueue.post, hb, hm, Config.reportPlaces, hl]

theorem queuePost_lastPlace (hb : b.maskedBy q.mask = false) (hm : q.marker = none) (hl : 31 ≤ q.list.length) :
    q.post b = q.append (.reportsLost 1) := by
  simp [ReportQueue.post, hb, hm, Config.reportPlaces, Nat.not_lt.mpr hl]

/-- Settles O14: each case is one branch of the rule. -/
theorem postingRuleHasFourCases : Obligations.PostingRuleHasFourCases := by
  refine fun q b => ⟨queuePost_masked, fun hb hm => ?_, queuePost_room, fun hb hm hl => queuePost_lastPlace hb hm hl.ge⟩
  rw [queuePost_dropped hb hm]
  exact ⟨rfl, rfl, rfl, fun k => List.getElem?_map ..⟩

/-! ## The delivery of the head (R152, R153) -/

theorem deliverHead_report {r : Report} {rest : List Report} (hl : q.list = r :: rest) (hr : r.body.lostCount = none) :
    q.deliverHead = { q with list := rest, mark := none } := by
  simp [ReportQueue.deliverHead, hl, hr]

/-- The marker leaves the list when all that it counts was in the frame. -/
theorem deliverHead_marker_settled {r : Report} {rest : List Report} {n m : Nat} (hl : q.list = r :: rest)
    (hr : r.body.lostCount = some n) (hm : q.mark = some m) (hle : n ≤ m) : q.deliverHead = { q with list := rest, mark := none } := by
  simp [ReportQueue.deliverHead, hl, hr, hm, Nat.not_lt.mpr hle]

/-- A new marker takes over the reports dropped since the frame was chosen. -/
theorem deliverHead_marker_above {r : Report} {rest : List Report} {n m : Nat} (hl : q.list = r :: rest)
    (hr : r.body.lostCount = some n) (hm : q.mark = some m) (hlt : m < n) :
    q.deliverHead = ({ q with list := rest, mark := none } : ReportQueue).append (.reportsLost (n - m)) := by
  simp [ReportQueue.deliverHead, hl, hr, hm, hlt]

/-- All that a delivery can do to the list: the head leaves, and behind a marker whose count rose above the mark a new one stands. -/
theorem deliverHead_cases (q : ReportQueue) :
    q.deliverHead = { q with list := q.list.tail, mark := none } ∨
    ∃ r rest n m, q.list = r :: rest ∧ r.body.lostCount = some n ∧ m < n ∧
      q.deliverHead = ({ q with list := rest, mark := none } : ReportQueue).append (.reportsLost (n - m)) := by
  cases hl : q.list with
  | nil => exact .inl (by simp [ReportQueue.deliverHead, hl])
  | cons r rest =>
    cases hr : r.body.lostCount with
    | none => exact .inl (deliverHead_report hl hr)
    | some n =>
      cases hm : q.mark with
      | none => exact .inl (by simp [ReportQueue.deliverHead, hl, hm])
      | some m =>
        obtain hlt | hle := Nat.lt_or_ge m n
        · exact .inr ⟨r, rest, n, m, rfl, hr, hlt, deliverHead_marker_above hl hr hm hlt⟩
        · exact .inl (deliverHead_marker_settled hl hr hm hle)

/-! ## The law of the list (R148, R151) -/

theorem marker_eq_none : q.marker = none ↔ ∀ r ∈ q.list, r.body.lostCount = none := List.findSome?_eq_none_iff

@[simp] theorem countLost_seq (r : Report) : r.countLost.seq = r.seq := by
  unfold Report.countLost
  split <;> rfl

@[simp] theorem countLost_lostCount (r : Report) : r.countLost.body.lostCount = r.body.lostCount.map satInc := by
  obtain ⟨seq, body⟩ := r
  cases body <;> rfl

theorem numbered_tail {next : Half} {l : List Report} (h : numbered next l) : numbered next l.tail := by
  cases l with
  | nil => exact h
  | cons r rest => exact h.2

theorem numbered_countLost {next : Half} {l : List Report} (h : numbered next l) : numbered next (l.map Report.countLost) := by
  induction l with
  | nil => exact h
  | cons r rest ih =>
    obtain ⟨hr, hrest⟩ := h
    exact ⟨by simpa using hr, ih hrest⟩

/-- The number before the next one becomes the last of the list, and every other stands one further from the next. -/
theorem numbered_append {next : Half} {l : List Report} (b : ReportBody) (h : numbered next l) :
    numbered (next + 1#16) (l ++ [⟨next, b⟩]) := by
  induction l with
  | nil => exact ⟨rfl, trivial⟩
  | cons r rest ih =>
    obtain ⟨rfl, hrest⟩ := h
    refine ⟨?_, ih hrest⟩
    show r.seq + BitVec.ofNat 16 ((rest ++ [_]).length + 1) = _
    rw [List.length_append, List.length_singleton, BitVec.ofNat_add, BitVec.add_assoc]

/-- The law speaks of the list and of the next number alone. -/
theorem ReportLaw.masked (h : ReportLaw q) (m : Word) : ReportLaw { q with mask := m } :=
  ⟨h.bounded, h.markerLast, h.fullHasMarker, h.counted, h.consecutive⟩

theorem ReportLaw.marked (h : ReportLaw q) (m : Option Nat) : ReportLaw { q with mark := m } :=
  ⟨h.bounded, h.markerLast, h.fullHasMarker, h.counted, h.consecutive⟩

/-- A report joins a list without a marker, and it is a marker itself where it takes the last place. -/
theorem ReportLaw.append (h : ReportLaw q) (hm : q.marker = none) (hlast : q.list.length = 31 → b.lostCount.isSome)
    (hb : ∀ n, b.lostCount = some n → 1 ≤ n ∧ n ≤ 65535) : ReportLaw (q.append b) := by
  have hnone := marker_eq_none.mp hm
  have hlen : (q.append b).list.length = q.list.length + 1 := List.length_append
  have hroom : q.list.length ≤ 31 := by
    have hb := h.bounded
    have hf := mt h.fullHasMarker (by simp [hm])
    simp only [Config.reportPlaces] at hb hf
    omega
  refine ⟨?_, fun r hr => ?_, fun hfull => ?_, fun r hr n hn => ?_, numbered_append b h.consecutive⟩
  · rw [hlen]
    exact Nat.succ_le_succ hroom
  · simp only [ReportQueue.append, List.dropLast_concat] at hr
    exact hnone r hr
  · have hsome : b.lostCount.isSome := hlast (by simpa [hlen, Config.reportPlaces] using hfull)
    rw [Option.isSome_iff_ne_none, ne_eq, marker_eq_none]
    exact fun hall => Option.isSome_iff_ne_none.mp hsome (hall ⟨q.next, b⟩ (by simp [ReportQueue.append]))
  · obtain hr | hr := List.mem_append.mp hr
    · exact h.counted r hr n hn
    · rw [List.mem_singleton.mp hr] at hn
      exact hb n hn

/-- A drop is counted in the marker. -/
theorem ReportLaw.dropped (h : ReportLaw q) : ReportLaw { q with list := q.list.map Report.countLost } := by
  refine ⟨by simpa using h.bounded, fun r hr => ?_, fun hfull => ?_, fun r hr n hn => ?_, numbered_countLost h.consecutive⟩
  · rw [← List.map_dropLast, List.mem_map] at hr
    obtain ⟨x, hx, rfl⟩ := hr
    simp [h.markerLast x hx]
  · have hsome := h.fullHasMarker (by simpa using hfull)
    rw [Option.isSome_iff_ne_none, ne_eq, marker_eq_none] at hsome ⊢
    simpa using hsome
  · obtain ⟨x, hx, rfl⟩ := List.mem_map.mp hr
    rw [countLost_lostCount, Option.map_eq_some_iff] at hn
    obtain ⟨k, hk, rfl⟩ := hn
    have := h.counted x hx k hk
    simp only [satInc]
    omega

/-- The head leaves. -/
theorem ReportLaw.tail (h : ReportLaw q) : ReportLaw { q with list := q.list.tail } := by
  have hlen : q.list.tail.length ≤ 31 := by
    have := h.bounded
    simp only [Config.reportPlaces] at this
    rw [List.length_tail]
    omega
  refine ⟨Nat.le_succ_of_le hlen, fun r hr => ?_, fun hfull => ?_, fun r hr => h.counted r (List.mem_of_mem_tail hr),
    numbered_tail h.consecutive⟩
  · rw [← List.tail_dropLast] at hr
    exact h.markerLast r (List.mem_of_mem_tail hr)
  · exact absurd hlen (by simp only [hfull, Config.reportPlaces]; decide)

/-- A marker at the head stands alone. -/
theorem ReportLaw.marker_alone (h : ReportLaw q) {r : Report} {rest : List Report} {n : Nat} (hl : q.list = r :: rest)
    (hr : r.body.lostCount = some n) : rest = [] := by
  cases rest with
  | nil => rfl
  | cons x xs =>
    have hnone := h.markerLast r (by simp [hl])
    exact absurd hr (by simp [hnone])

/-- The posting rule keeps the law, as R151 argues case by case. -/
theorem ReportLaw.post (h : ReportLaw q) (hb : b.lostCount = none) : ReportLaw (q.post b) := by
  cases hmask : b.maskedBy q.mask with
  | true => rwa [queuePost_masked hmask]
  | false =>
    by_cases hm : q.marker = none
    · obtain hroom | hlast := Nat.lt_or_ge q.list.length 31
      · rw [queuePost_room hmask hm hroom]
        exact h.append hm (fun hfull => absurd hfull hroom.ne) (by simp [hb])
      · rw [queuePost_lastPlace hmask hm hlast]
        exact h.append hm (fun _ => rfl) (by simp [ReportBody.lostCount])
    · rw [queuePost_dropped hmask hm]
      exact h.dropped

/-- A delivery keeps the law: a marker that rose above its mark stood alone, so that the new one does. -/
theorem ReportLaw.deliverHead (h : ReportLaw q) : ReportLaw q.deliverHead := by
  have hleft := h.tail.marked none
  obtain he | ⟨r, rest, n, m, hl, hr, hlt, he⟩ := deliverHead_cases q
  · rwa [he]
  · obtain rfl := h.marker_alone hl hr
    have hn := h.counted r (by simp [hl]) n hr
    rw [hl] at hleft
    rw [he]
    exact hleft.append rfl nofun (by simp only [ReportBody.lostCount, Option.some.injEq]; omega)

theorem reportLaw_empty : ReportLaw .empty := ⟨by decide, nofun, nofun, nofun, trivial⟩

end Sys2Proof.Machine
end

section
/-! PROOFS. What a step can do to the report queue, said once: the port's bytes hand it to an owner, deliver its head or reset it, a transfer
sets its mark, and the actions below the port post (08 R147 to R156). -/

namespace Sys2Proof.Machine

variable {d : Device} {Q : ReportQueue → Prop}

/-! ## The port -/

/-- The report queue of a device is a given one, or what a request's owner made of it. -/
def Answered (q : ReportQueue) (t : Device) : Prop :=
  t.reports = q ∨ ∃ k body e, e.reports = q ∧ t.reports = (owner k body e).2.reports

theorem takeRequest_answered (k : RequestKind) (tag : Byte) (body : List Byte) (d : Device) :
    Answered d.reports (takeRequest k tag body d) := by
  unfold takeRequest
  split
  · exact .inl rfl
  · exact answerRequest_keeps (P := Answered d.reports) (.inr ⟨k, body, countAccepted d, rfl, rfl⟩) (.inl rfl)

theorem rejectInbound_reports (tag : Byte) (r : RejectReason) (d : Device) : (rejectInbound tag r d).reports = d.reports := by
  unfold rejectInbound
  split <;> rfl

theorem judgeFrame_answered (kind tag len : Byte) (body : List Byte) (c0 c1 : Byte) (d : Device) :
    Answered d.reports (judgeFrame kind tag len body c0 c1 d) := by
  unfold judgeFrame
  split
  · split
    · exact takeRequest_answered ..
    · exact .inl (rejectInbound_reports ..)
  · exact .inl (rejectInbound_reports ..)

theorem takeLength_reports (kind tag len : Byte) (d : Device) : (takeLength kind tag len d).reports = d.reports := by
  unfold takeLength
  split
  · split <;> rfl
  · exact rejectInbound_reports ..

/-- A byte that the parser takes changes the queue through the owner of the request that it completes alone. -/
theorem parseByte_answered (b : Byte) (d : Device) : Answered d.reports (parseByte b d) := by
  unfold parseByte
  split
  case h_1 =>
    split
    · exact .inl rfl
    · split <;> exact .inl rfl
  case h_4 => exact .inl (takeLength_reports ..)
  case h_5 => split <;> exact .inl rfl
  case h_7 => exact judgeFrame_answered ..
  all_goals exact .inl rfl

/-- A byte that goes out leaves the queue, delivers its head, or resets the device. -/
theorem clockOutByte_reports (d : Device) : (clockOutByte d).reports = d.reports ∨ (clockOutByte d).reports = d.reports.deliverHead ∨
    (clockOutByte d).reports = .ready .request := by
  unfold clockOutByte
  split
  · split
    · exact .inl rfl
    · unfold deliver
      split
      · exact .inr (.inl rfl)
      · split
        · exact .inr (.inr rfl)
        · exact .inl rfl
  · exact .inl rfl
  · exact .inl rfl

/-- A fall of MSEL sets the mark at most. -/
theorem startTransfer_reports (d : Device) : ∃ m, (startTransfer d).reports = { d.reports with mark := m } := by
  unfold startTransfer
  split
  · split <;> exact ⟨_, rfl⟩
  all_goals exact ⟨_, rfl⟩

/-- A rise of MSEL drops the mark at most. -/
theorem endTransfer_reports (d : Device) : ∃ m, (endTransfer d).reports = { d.reports with mark := m } := by
  have hcut : (if d.port.parser.midFrame then countTruncated d else d).reports = d.reports := by split <;> rfl
  unfold endTransfer
  dsimp only
  split
  · exact ⟨_, rfl⟩
  · exact ⟨_, rfl⟩
  · split
    · exact ⟨none, congrArg (fun q : ReportQueue => { q with mark := none }) hcut⟩
    · exact ⟨_, hcut⟩

/-! ## Below the port -/

/-- The end of a reception posts INBOX at most (06 R114). -/
theorem endReception_reports (g : SegId) (d : Device) : (endReception g d).reports = d.reports ∨
    ∃ k n, (endReception g d).reports = d.reports.post (.inbox g k n) := by
  unfold endReception
  split
  · split
    · exact .inl rfl
    · unfold storeMessage
      split
      · exact .inl rfl
      · exact .inr ⟨_, _, rfl⟩
  all_goals exact .inl rfl

theorem cutReception_reports (g : SegId) (d : Device) : (cutReception g d).reports = d.reports := by
  unfold cutReception
  split <;> rfl

theorem requestPlace_reports (g : SegId) (k : InboxKind) (d : Device) : (requestPlace g k d).reports = d.reports := by
  unfold requestPlace
  split <;> rfl

theorem judgeAddress_reports (g : SegId) (b : Byte) (d : Device) : (judgeAddress g b d).reports = d.reports := by
  unfold judgeAddress
  dsimp only
  split
  · split
    · rfl
    · exact requestPlace_reports ..
  · split
    · exact requestPlace_reports ..
    · rfl

theorem takeDataByte_reports (g : SegId) (b : Byte) (d : Device) : (takeDataByte g b d).reports = d.reports := by
  unfold takeDataByte
  split
  · split <;> rfl
  all_goals rfl

/-- A property of the report queue that a reset establishes, and that a post of any report but a marker, a new mask, a new mark and a delivery
keep. -/
structure ReportsKept (Q : ReportQueue → Prop) : Prop where
  post : ∀ b q, b.lostCount = none → Q q → Q (q.post b)
  mask : ∀ m q, Q q → Q { q with mask := m }
  mark : ∀ m q, Q q → Q { q with mark := m }
  delivered : ∀ q, Q q → Q q.deliverHead
  empty : Q .empty
  ready : ∀ reason, Q (.ready reason)

theorem ReportsKept.closed (hQ : ReportsKept Q) : Closed fun d => Q d.reports where
  post b d hb h := hQ.post b d.reports hb h
  slot _ _ _ h := h
  entry _ _ _ _ h := h
  seg _ _ _ _ h := h
  sched _ _ _ h := h
  cut g d h := (cutReception_reports g d).symm ▸ h

theorem endReception_reportsKept (hQ : ReportsKept Q) (g : SegId) (h : Q d.reports) : Q (endReception g d).reports := by
  obtain he | ⟨k, n, he⟩ := endReception_reports g d
  · rwa [he]
  · rw [he]
    exact hQ.post _ _ rfl h

theorem frameBoundary_reportsKept (hQ : ReportsKept Q) (h : Q d.reports) : Q (frameBoundary d).reports :=
  frameBoundary_closed (P := fun d => Q d.reports) (d := d) hQ.closed (fun _ _ h => h) h

theorem startSchedule_reportsKept (hQ : ReportsKept Q) (h : Q d.reports) : Q (startSchedule d).reports :=
  startSchedule_closed (P := fun d => Q d.reports) (d := d) hQ.closed (fun _ _ h => h) h

/-- The receivers' rows end a reception at most, and a frame boundary is made of closed actions and the schedule's own state. -/
theorem event_reportsKept (hQ : ReportsKept Q) {c : Instr} {f : Device → Device} (hf : eventAction c = some f) (h : Q d.reports) :
    Q (f d).reports := by
  have hP := hQ.closed
  cases hc : closedEvent c with
  | true => exact event_closed hP hf hc h
  | false =>
    cases c <;> simp only [closedEvent, reduceCtorEq] at hc <;> simp only [eventAction, Option.some.injEq] at hf <;> subst hf
    case busStartSeen g =>
      unfold startSeen
      split
      · exact endReception_reportsKept hQ g h
      · exact h
    case busStopSeen g =>
      unfold stopSeen
      split
      · exact endReception_reportsKept hQ g h
      · exact h
    case addressByteJudged g b =>
      unfold addressSeen
      split
      · rw [judgeAddress_reports]
        exact endReception_reportsKept hQ g h
      · exact h
    case receivedDataByte g b => rwa [takeDataByte_reports]
    case frameBoundary =>
      dsimp only
      split
      · exact selectAfterJoins_closed hP _ (frameBoundary_reportsKept hQ h)
      · exact h

/-- A mask of report kinds without READY replaces the one that stands (08 R155). -/
theorem requestSetReportMask_allowed {b0 b1 b2 b3 : Byte} (h : ofLe32 b0 b1 b2 b3 &&& 0xFFFF0001#32 = 0#32) (d : Device) :
    requestSetReportMask [b0, b1, b2, b3] d =
      (⟨.ok, le32 d.reports.mask ++ [byte d.reports.list.length, flagByte d.reports.marker.isSome] ++
        le16 (BitVec.ofNat 16 (d.reports.marker.getD 0)) ++ le16 d.reports.next⟩,
       d.updReports fun q => { q with mask := ofLe32 b0 b1 b2 b3 }) := if_pos (beq_iff_eq.mpr h)

theorem requestSetReportMask_refused {b0 b1 b2 b3 : Byte} (h : ofLe32 b0 b1 b2 b3 &&& 0xFFFF0001#32 ≠ 0#32) (d : Device) :
    requestSetReportMask [b0, b1, b2, b3] d = (refuse .badField, d) := if_neg (mt beq_iff_eq.mp h)

theorem requestSetReportMask_reports (body : List Byte) (d : Device) :
    ∃ m, (requestSetReportMask body d).2.reports = { d.reports with mask := m } := by
  unfold requestSetReportMask
  dsimp only
  split <;> exact ⟨_, rfl⟩

theorem requestAddTarget_reports (body : List Byte) (d : Device) : (requestAddTarget body d).2.reports = d.reports := by
  unfold requestAddTarget
  split
  · split
    · dsimp only
      split
      · rfl
      · split
        · rfl
        · split <;> rfl
    · rfl
  · rfl

theorem requestModifyTarget_reports (body : List Byte) (d : Device) : (requestModifyTarget body d).2.reports = d.reports := by
  unfold requestModifyTarget
  split
  · rfl
  · split
    · rfl
    · split
      · rfl
      · split <;> rfl

theorem requestConfigureSegment_reports (body : List Byte) (d : Device) : (requestConfigureSegment body d).2.reports = d.reports := by
  refine onSegment_keeps (P := fun t => t.reports = d.reports) (fun g => ?_) rfl
  cases hc : configAt body with
  | none => rw [configureSegment_unreadable hc]
  | some c =>
    by_cases hm : (d.seg g).takesConfig c
    · by_cases hl : c.ownAddress ≠ 0#7 ∧ (lookup g c.ownAddress d).isSome = true
      · rw [configureSegment_ownTaken hc hm hl.1 hl.2]
      · rw [configureSegment_done hc hm hl]
        rfl
    · rw [configureSegment_busy hc hm]

/-- An owner acts on other blocks, posts by closed actions, or sets the mask. -/
theorem owner_reportsKept (hQ : ReportsKept Q) (k : RequestKind) (body : List Byte) (h : Q d.reports) : Q (owner k body d).2.reports := by
  have hP := hQ.closed
  cases hk : closedRequest k with
  | true => exact owner_closed hP hk body h
  | false =>
    cases k <;> simp only [closedRequest, reduceCtorEq] at hk
    case restart => exact h
    case linkStatus =>
      show Q (requestLinkStatus body d).2.reports
      unfold requestLinkStatus
      dsimp only
      split <;> exact h
    case setAttention =>
      show Q (requestSetAttention body d).2.reports
      unfold requestSetAttention
      split <;> exact h
    case setReportMask =>
      obtain ⟨m, hm⟩ := requestSetReportMask_reports body d
      show Q (requestSetReportMask body d).2.reports
      rw [hm]
      exact hQ.mask m _ h
    case addTarget => exact (requestAddTarget_reports body d).symm ▸ h
    case modifyTarget => exact (requestModifyTarget_reports body d).symm ▸ h
    case configureSegment => exact (requestConfigureSegment_reports body d).symm ▸ h
    case setFrame =>
      show Q (requestSetFrame body d).2.reports
      unfold requestSetFrame
      split
      · split <;> exact h
      · exact h
    case startSchedule =>
      show Q (requestStartSchedule body d).2.reports
      cases hr : d.schedule.running with
      | true => rwa [requestStartSchedule_running hr]
      | false =>
        rw [requestStartSchedule_stopped hr]
        show Q (selectAfterJoins d (startSchedule d)).reports
        exact selectAfterJoins_closed hP _ (startSchedule_reportsKept hQ h)
    case stopSchedule =>
      show Q (requestStopSchedule body d).2.reports
      cases hr : d.schedule.running with
      | true =>
        rw [requestStopSchedule_running hr]
        exact swapIfPending_closed hP h
      | false => rwa [requestStopSchedule_stopped hr]
    case commitBank =>
      show Q (requestCommitBank body d).2.reports
      unfold requestCommitBank
      split
      · split <;> exact h
      · exact swapBanks_closed hP h
    case fetchInbox =>
      show Q (requestFetchInbox body d).2.reports
      unfold requestFetchInbox
      split <;> exact h
    case inboxStatus =>
      show Q (requestInboxStatus body d).2.reports
      unfold requestInboxStatus
      dsimp only
      split <;> exact h

/-! ## Every step -/

theorem parseByte_reportsKept (hQ : ReportsKept Q) (b : Byte) (h : Q d.reports) : Q (parseByte b d).reports := by
  obtain he | ⟨k, body, e, hd, he⟩ := parseByte_answered b d
  · rwa [he]
  · rw [he]
    exact owner_reportsKept hQ k body (hd ▸ h)

theorem clockOutByte_reportsKept (hQ : ReportsKept Q) (h : Q d.reports) : Q (clockOutByte d).reports := by
  obtain he | he | he := clockOutByte_reports d <;> rw [he]
  · exact h
  · exact hQ.delivered _ h
  · exact hQ.ready _

theorem clockByte_reportsKept (hQ : ReportsKept Q) (b : Byte) (h : Q d.reports) : Q (clockByte d b).reports := by
  have hout := clockOutByte_reportsKept hQ h
  unfold clockByte
  split
  · dsimp only
    split
    · exact parseByte_reportsKept hQ b hout
    · exact hout
  · exact h

theorem clockBytes_reportsKept (hQ : ReportsKept Q) (l : List Byte) (h : Q d.reports) : Q (clockBytes l d).reports :=
  foldl_keeps (P := fun d => Q d.reports) _ (fun _ b hd => clockByte_reportsKept hQ b hd) l h

/-- Every command keeps such a property: a request row clocks in its frame, an event acts, and the rest is the port's. -/
theorem exec_reportsKept (hQ : ReportsKept Q) (c : Instr) {s t : State} (h : Q s.dev.reports) (he : exec c s = .next t) : Q t.dev.reports := by
  cases hr : requestOf c with
  | some r =>
    obtain ⟨k, tag, body⟩ := r
    rw [request_clocked hr, Host.Outcome.next.injEq] at he
    subst he
    exact clockBytes_reportsKept hQ _ (takeNote_closed hQ.closed _ h)
  | none =>
    cases hf : eventAction c with
    | some f =>
      rw [exec_event hf, Host.Outcome.next.injEq] at he
      subst he
      exact event_reportsKept hQ hf h
    | none =>
      cases c <;> simp only [requestOf, eventAction, reduceCtorEq] at hr hf <;> injection he with he <;> subst he
      case rejectFrame => exact clockBytes_reportsKept hQ _ h
      case strayByte => exact clockBytes_reportsKept hQ _ h
      case inboundFrameBegins => exact clockBytes_reportsKept hQ _ h
      case transferStart =>
        obtain ⟨m, hm⟩ := startTransfer_reports s.dev
        exact hm.symm ▸ hQ.mark m _ h
      case transferEnd mdi =>
        obtain ⟨m, hm⟩ := endTransfer_reports (clockBytes mdi s.dev)
        exact hm.symm ▸ hQ.mark m _ (clockBytes_reportsKept hQ mdi h)
      case frameDelivery => exact clockBytes_reportsKept hQ _ h
      case restartFallbackExpiry =>
        show Q (restartFallbackExpires _).reports
        unfold restartFallbackExpires
        split
        · exact hQ.ready _
        · exact h
      case rstnAssert =>
        show Q (assertReset _).reports
        unfold assertReset
        split
        · exact h
        · exact hQ.empty
      case rstnRelease =>
        show Q (releaseReset _).reports
        unfold releaseReset
        split
        · exact hQ.ready _
        · exact h
      case powerOnReset => exact hQ.ready _

theorem reportLaw_kept : ReportsKept ReportLaw where
  post _ _ hb h := h.post hb
  mask m _ h := h.masked m
  mark m _ h := h.marked m
  delivered _ h := h.deliverHead
  empty := reportLaw_empty
  ready := reportLaw_ready

/-- Settles O16: the law is kept by a post, a new mask or mark, a delivery and a reset, and a step does no more to the queue. -/
theorem everyStepKeepsTheReportLaw : Obligations.EveryStepKeepsTheReportLaw := by
  intro s t h hs
  unfold step at hs
  split at hs
  · rw [Host.Outcome.next.injEq] at hs
    exact hs ▸ h
  · next c rest _ => exact exec_reportsKept reportLaw_kept (s := ⟨s.dev, rest⟩) c h hs

/-- Settles O15: the owner's check decides, and the owner finds the queue as it stands. -/
theorem reportMaskIsReplacedOrRefused : Obligations.ReportMaskIsReplacedOrRefused := by
  intro s tag b0 b1 b2 b3 o ha
  have answered : ∀ {r u}, requestSetReportMask [b0, b1, b2, b3] (found o s.dev) = (r, u) →
      exec (.setReportMask tag [b0, b1, b2, b3]) s = replyTo s 0x85#8 tag (r.status.code :: r.fields) u := fun h =>
    request_reply .setReportMask _ _ rfl rfl rfl (Nat.le_add_left 4 56) ha rfl h
  exact ⟨fun hm => answered (requestSetReportMask_allowed hm _), fun hm => answered (requestSetReportMask_refused hm _)⟩

end Sys2Proof.Machine
end

section
/-! PROOFS. A transfer from the fall of MSEL to its rise (08 R153; 09 R159, R163, R166, R167, R175, R176), and the resets by the pin and by
power (08 R156; 09 R175). -/

namespace Sys2Proof.Machine

variable {d : Device}

/-! ## MSEL falls (R166; R153, R175) -/

theorem startTransfer_rstnLow (hi : d.port.transfer = .idle) (hr : d.rstnLow = true) :
    startTransfer d = d.updPort fun p => { p with transfer := .ignored } := by
  simp only [startTransfer, hi, hr, if_true]

theorem startTransfer_chosen {o : Outbound} {m : Option Nat} (hi : d.port.transfer = .idle) (hr : d.rstnLow = false)
    (ho : chooseOutbound d = o) (hm : markAtStart d = m) : startTransfer d =
      (d.updReports fun q => { q with mark := m }).updPort fun p => { p with transfer := .active, parser := .hunt, outbound := o } := by
  simp only [startTransfer, hi, hr, ho, hm, Bool.false_eq_true, if_false]

theorem chooseOutbound_reply {f : Frame} {rest : List Frame} (h : d.port.replies = f :: rest) : chooseOutbound d = .chosen false f 0 := by
  simp only [chooseOutbound, h]

theorem chooseOutbound_report {r : Report} {rest : List Report} (hn : d.port.replies = []) (h : d.reports.list = r :: rest) :
    chooseOutbound d = .chosen true r.frame 0 := by
  simp only [chooseOutbound, hn, h]

theorem chooseOutbound_nothing (hn : d.port.replies = []) (h : d.reports.list = []) : chooseOutbound d = .nothing := by
  simp only [chooseOutbound, hn, h]

theorem markAtStart_reply {f : Frame} {rest : List Frame} (h : d.port.replies = f :: rest) : markAtStart d = none := by
  simp [markAtStart, h]

theorem markAtStart_head (hn : d.port.replies = []) : markAtStart d = d.reports.list.head?.bind fun r => r.body.lostCount := by
  simp [markAtStart, hn]

/-- Settles O9: the choice and the mark, each by what waits. -/
theorem transferStartFixesTheOutboundFrame : Obligations.TransferStartFixesTheOutboundFrame := by
  intro s hi
  have started : ∀ {t}, startTransfer s.dev = t → exec .transferStart s = .next { s with dev := t } := fun h => h ▸ rfl
  refine ⟨fun hr => started (startTransfer_rstnLow hi hr), fun f rest hr hf => ?_, fun r rest hr hn hl => ?_, fun hr hn hl => ?_⟩
  · exact started (startTransfer_chosen hi hr (chooseOutbound_reply hf) (markAtStart_reply hf))
  · exact started (startTransfer_chosen hi hr (chooseOutbound_report hn hl) (by rw [markAtStart_head hn, hl]; rfl))
  · refine ⟨_, started (startTransfer_chosen hi hr (chooseOutbound_nothing hn hl) (m := none) (by rw [markAtStart_head hn, hl]; rfl)),
      ?_, rfl⟩
    simp [Device.mdoByte, hr]

/-! ## MSEL rises (R163, R167; R153) -/

theorem midFrame_eq_false {p : Parser} : p.midFrame = false ↔ p = .hunt ∨ p = .done := by
  cases p <;> simp [Parser.midFrame]

theorem undelivered_iff {o : Outbound} : o.undelivered = true ↔ ∃ r f n, o = .chosen r f n := by
  cases o <;> simp [Outbound.undelivered]

/-- The port as it waits for the next transfer. -/
def closeTransfer (d : Device) : Device := d.updPort fun p => { p with transfer := .idle, parser := .hunt, outbound := .nothing }

theorem endTransfer_ignored (h : d.port.transfer = .ignored) : endTransfer d = closeTransfer d := by
  simp only [endTransfer, h]
  rfl

theorem endTransfer_active (h : d.port.transfer = .active) {cut : Device}
    (hcut : (if d.port.parser.midFrame then countTruncated d else d) = cut) : endTransfer d =
      closeTransfer (if d.port.outbound.undelivered then countResend (cut.updReports fun q => { q with mark := none }) else cut) := by
  simp only [endTransfer, h, hcut]
  rfl

/-- Settles O10: what was cut inbound is counted first, then what was cut outbound. -/
theorem transferEndCountsWhatWasCut : Obligations.TransferEndCountsWhatWasCut := by
  unfold Obligations.TransferEndCountsWhatWasCut
  intro closed unmarked
  have ended : ∀ {s : State} {t}, endTransfer s.dev = t → exec (.transferEnd []) s = .next { s with dev := t } := fun h => h ▸ rfl
  refine ⟨fun _ _ => rfl, fun s hi => ended (endTransfer_ignored hi), fun s ha => ?_⟩
  intro sending whole
  have inbound : ∀ {t}, (if s.dev.port.parser.midFrame then countTruncated s.dev else s.dev) = t →
      (¬ sending → exec (.transferEnd []) s = .next { s with dev := closed t }) ∧
      (sending → exec (.transferEnd []) s = .next { s with dev := closed (countResend (unmarked t)) }) := fun ht => by
    refine ⟨fun hs => ended ?_, fun hs => ended ?_⟩
    · rw [endTransfer_active ha ht, if_neg (mt undelivered_iff.mp hs)]
      rfl
    · rw [endTransfer_active ha ht, if_pos (undelivered_iff.mpr hs)]
      rfl
  have hwhole : whole → s.dev.port.parser.midFrame = false := midFrame_eq_false.mpr
  have hpartial : ¬ whole → s.dev.port.parser.midFrame = true := fun h => (Bool.not_eq_false _).mp (mt midFrame_eq_false.mp h)
  exact ⟨fun h => (inbound (by rw [hwhole h]; rfl)).1, fun h => (inbound (by rw [hwhole h]; rfl)).2,
    fun h => (inbound (by rw [hpartial h]; rfl)).1, fun h => (inbound (by rw [hpartial h]; rfl)).2⟩

/-! ## The last byte of the outbound frame (R167, R176) -/

theorem isRestartReply_iff {f : Frame} : f.isRestartReply = true ↔ f.kind = 0x82#8 ∧ f.body = [0x00#8] := by
  simp only [Frame.isRestartReply, Bool.and_eq_true, beq_iff_eq]
  exact Iff.rfl

theorem deliver_report (f : Frame) (d : Device) :
    deliver true f d = (d.updReports ReportQueue.deliverHead).updPort fun p => { p with outbound := .delivered } := rfl

theorem deliver_reply {f : Frame} (hf : ¬ (f.kind = 0x82#8 ∧ f.body = [0x00#8])) (d : Device) :
    deliver false f d = d.updPort fun p => { p with replies := p.replies.tail, outbound := .delivered } :=
  if_neg (mt isRestartReply_iff.mp hf)

theorem deliver_restart {f : Frame} (hk : f.kind = 0x82#8) (hb : f.body = [0x00#8]) (d : Device) :
    deliver false f d = deviceReset (.ready .request) d := if_pos (isRestartReply_iff.mpr ⟨hk, hb⟩)

/-- At the last byte the chosen frame is delivered, and the parser takes the byte unless the delivery reset the device. -/
theorem clockByte_last {isReport : Bool} {f : Frame} {n : Nat} (ha : d.port.transfer = .active)
    (ho : d.port.outbound = .chosen isReport f n) (hn : n + 1 = f.length) (b : Byte) :
    clockByte d b = if (deliver isReport f d).port.transfer = .active then parseByte b (deliver isReport f d) else deliver isReport f d := by
  have hout : clockOutByte d = deliver isReport f d := by
    simp only [clockOutByte, ho, if_neg (show ¬ n + 1 < f.length by omega)]
  simp only [clockByte, ha, hout, if_true]

theorem clockByte_reply_last {f : Frame} {n : Nat} (ha : d.port.transfer = .active) (ho : d.port.outbound = .chosen false f n)
    (hn : n + 1 = f.length) (hf : ¬ (f.kind = 0x82#8 ∧ f.body = [0x00#8])) (b : Byte) :
    clockByte d b = parseByte b (d.updPort fun p => { p with replies := p.replies.tail, outbound := .delivered }) := by
  rw [clockByte_last ha ho hn, deliver_reply hf]
  exact if_pos ha

theorem clockByte_restart_last {f : Frame} {n : Nat} (ha : d.port.transfer = .active) (ho : d.port.outbound = .chosen false f n)
    (hn : n + 1 = f.length) (hk : f.kind = 0x82#8) (hb : f.body = [0x00#8]) (b : Byte) :
    clockByte d b = deviceReset (.ready .request) d := by
  have hreset : (deviceReset (.ready .request) d).port.transfer = .ignored := by
    show d.port.transfer.atReset = _
    rw [ha]
    rfl
  rw [clockByte_last ha ho hn, deliver_restart hk hb, if_neg (by simp [hreset])]

/-! ## FRAME_DELIVERY (log 3) -/

theorem parseByte_zero (h : d.port.parser = .hunt) : parseByte 0#8 d = d := by
  simp [parseByte, h]

/-- The device with its outbound choice at a given value. -/
def outboundAt (o : Outbound) (d : Device) : Device := d.updPort fun p => { p with outbound := o }

/-- Bytes of 0x00 in HUNT that do not deliver the outbound frame only send it on. -/
theorem clockBytes_zeros {n : Nat} {o : Outbound} (ha : d.port.transfer = .active) (hq : d.port.parser = .hunt)
    (ho : d.port.outbound.after n = some o) : clockBytes (List.replicate n 0#8) d = outboundAt o d := by
  induction n generalizing d with
  | zero =>
    rw [Outbound.after_zero ho]
    rfl
  | succ n ih =>
    obtain ⟨x, hx, hx'⟩ := Outbound.after_add (m := 1) (n := n) (by rwa [Nat.add_comm])
    have hfirst : clockByte d 0#8 = outboundAt x d := (clockByte_linkAt ha hx 0#8).trans (parseByte_zero hq)
    rw [List.replicate_succ, clockBytes_cons, hfirst, ih (d := outboundAt x d) ha hq hx']
    rfl

/-- The row sends the rest of the chosen frame against 0x00 on MDI, and the parser in HUNT passes over the last byte too. -/
theorem frameDelivery_exec {s : State} {isReport : Bool} {f : Frame} {n : Nat} {t : Device} (ha : s.dev.port.transfer = .active)
    (hq : s.dev.port.parser = .hunt) (ho : s.dev.port.outbound = .chosen isReport f n) (hn : n < f.length)
    (ht : ∀ o, deliver isReport f (outboundAt o s.dev) = t) (hactive : t.port.transfer = .active)
    (hhunt : t.port.parser = .hunt) : exec (.frameDelivery []) s = .next { s with dev := t } := by
  obtain ⟨m, hm⟩ : ∃ m, f.length = n + m + 1 := ⟨f.length - n - 1, by omega⟩
  have hbytes : restOfOutbound [] s.dev = List.replicate m 0#8 ++ [0#8] := by
    rw [← List.replicate_succ']
    simp [restOfOutbound, ho, padTo, show f.length - n = m + 1 by omega]
  have hafter : s.dev.port.outbound.after m = some (.chosen isReport f (n + m)) := by
    rw [ho]
    exact if_pos (by omega)
  have hlast : clockByte (outboundAt (.chosen isReport f (n + m)) s.dev) 0#8 = t := by
    rw [clockByte_last (d := outboundAt (.chosen isReport f (n + m)) s.dev) ha rfl hm.symm, ht, if_pos hactive, parseByte_zero hhunt]
  have hrun : clockBytes (restOfOutbound [] s.dev) s.dev = t := by
    rw [hbytes, clockBytes_append, clockBytes_zeros ha hq hafter]
    exact hlast
  exact hrun ▸ rfl

theorem updReports_congr {f g : ReportQueue → ReportQueue} (h : f d.reports = g d.reports) : d.updReports f = d.updReports g :=
  congrArg (fun q => { d with reports := q }) h

/-- Settles O11: a reply by whether it is the RESTART reply, a report by whether it is a marker and by the drops since the mark. -/
theorem deliveryTakesTheHeadAndSettlesTheMarker : Obligations.DeliveryTakesTheHeadAndSettlesTheMarker := by
  refine ⟨fun d f n b ha ho hn => ⟨fun hf => clockByte_reply_last ha ho hn hf b, fun hk hb => clockByte_restart_last ha ho hn hk hb b⟩,
    fun s isReport f n ha hq ho hn => ?_⟩
  have reported : ∀ {g}, isReport = true → s.dev.reports.deliverHead = g s.dev.reports → exec (.frameDelivery []) s =
      .next { s with dev := (s.dev.updReports g).updPort fun p => { p with outbound := .delivered } } := fun hr hg => by
    subst hr
    rw [← updReports_congr hg]
    exact frameDelivery_exec ha hq ho hn (fun _ => rfl) ha hq
  refine ⟨fun hr hf => ?_, fun r rest hr hl hnone => reported hr (deliverHead_report hl hnone),
    fun seq c hr hl hm => reported hr (deliverHead_marker_settled hl rfl hm le_rfl),
    fun seq c m hr hl hm hlt => reported hr (deliverHead_marker_above hl rfl hm hlt)⟩
  subst hr
  exact frameDelivery_exec ha hq ho hn (fun _ => deliver_reply hf _) ha hq

/-! ## The pin and power (08 R156; 09 R175) -/

theorem assertReset_high (h : d.rstnLow = false) : assertReset d = { deviceReset .empty d with rstnLow := true } := if_neg (by simp [h])

theorem assertReset_low (h : d.rstnLow = true) : assertReset d = d := if_pos h

theorem releaseReset_low (h : d.rstnLow = true) : releaseReset d = { deviceReset (.ready .pin) d with rstnLow := false } := if_pos h

theorem releaseReset_high (h : d.rstnLow = false) : releaseReset d = d := if_neg (by simp [h])

/-- Settles O12: each row by the level of the pin. -/
theorem pinAndPowerResetTheDevice : Obligations.PinAndPowerResetTheDevice := by
  have fell : ∀ {s : State} {t}, assertReset s.dev = t → exec .rstnAssert s = .next { s with dev := t } := fun h => h ▸ rfl
  have rose : ∀ {s : State} {t}, releaseReset s.dev = t → exec .rstnRelease s = .next { s with dev := t } := fun h => h ▸ rfl
  exact ⟨fun s h => fell (assertReset_high h), fun s h => fell (assertReset_low h), fun s h => rose (releaseReset_low h),
    fun s h => rose (releaseReset_high h), fun _ => rfl⟩

end Sys2Proof.Machine
end

section
/-! PROOFS. The reply queue (09 R165): a byte that the port takes joins one frame at most, and only where a place is free; a delivery takes the
head, a reset empties the queue, and nothing below the port touches it. -/

namespace Sys2Proof.Machine

variable {d : Device} {k : RequestKind} {tag : Byte} {body : List Byte}

/-! ## The four cases of a request, and a REJECT (R162, R164) -/

theorem repliesFull_iff : d.repliesFull = true ↔ 4 ≤ d.port.replies.length := decide_eq_true_iff

theorem takeRequest_full (h : 4 ≤ d.port.replies.length) : takeRequest k tag body d = countUnanswered d := if_pos (repliesFull_iff.mpr h)

theorem takeRequest_room (h : d.port.replies.length < 4) : takeRequest k tag body d =
    pushReply ((answerRequest k body (countAccepted d)).1.frame k.code tag) (answerRequest k body (countAccepted d)).2 :=
  if_neg (mt repliesFull_iff.mp (Nat.not_le.mpr h))

theorem answerRequest_restarting (h : d.port.restartPending = true) : answerRequest k body d = (refuse .restarting, d) := if_pos h

theorem answerRequest_badLength (h : d.port.restartPending = false) (hl : lengthAllowed k body = false) :
    answerRequest k body d = (refuse .badLength, d) := by
  simp only [answerRequest, h, hl, Bool.false_eq_true, if_false]

theorem answerRequest_executed (h : d.port.restartPending = false) (hl : lengthAllowed k body = true) :
    answerRequest k body d = owner k body d := by
  simp only [answerRequest, h, hl, Bool.false_eq_true, if_false, if_true]

theorem rejectInbound_full {r : RejectReason} (h : 4 ≤ d.port.replies.length) : rejectInbound tag r d = countUnanswered d :=
  if_pos (repliesFull_iff.mpr h)

theorem rejectInbound_room {r : RejectReason} (h : d.port.replies.length < 4) :
    rejectInbound tag r d = pushReply ⟨0xEF#8, tag, [r.code]⟩ d := if_neg (mt repliesFull_iff.mp (Nat.not_le.mpr h))

/-! ## No owner touches the reply queue -/

theorem cutReception_port (g : SegId) (d : Device) : (cutReception g d).port = d.port := by
  unfold cutReception
  split <;> rfl

theorem repliesAre_closed (l : List Frame) : Closed fun t => t.port.replies = l where
  post _ _ _ h := h
  slot _ _ _ h := h
  entry _ _ _ _ h := h
  seg _ _ _ _ h := h
  sched _ _ _ h := h
  cut g t h := (cutReception_port g t).symm ▸ h

/-- ADD_TARGET writes one entry at most (01 R5). -/
theorem requestAddTarget_writes (body : List Byte) (d : Device) :
    (requestAddTarget body d).2 = d ∨ ∃ i f, (requestAddTarget body d).2 = d.updEntry i f := by
  unfold requestAddTarget
  split
  · split
    · dsimp only
      split
      · exact .inl rfl
      · split
        · exact .inl rfl
        · split
          · exact .inl rfl
          · exact .inr ⟨_, _, rfl⟩
    · exact .inl rfl
  · exact .inl rfl

/-- MODIFY_TARGET writes one entry at most (01 R6). -/
theorem requestModifyTarget_writes (body : List Byte) (d : Device) :
    (requestModifyTarget body d).2 = d ∨ ∃ i f, (requestModifyTarget body d).2 = d.updEntry i f := by
  unfold requestModifyTarget
  split
  · exact .inl rfl
  · split
    · exact .inl rfl
    · split
      · exact .inl rfl
      · split
        · exact .inl rfl
        · exact .inr ⟨_, _, rfl⟩

/-- CONFIGURE_SEGMENT writes one segment at most (04 R60, R61). -/
theorem requestConfigureSegment_writes (body : List Byte) (d : Device) :
    (requestConfigureSegment body d).2 = d ∨ ∃ g f, (requestConfigureSegment body d).2 = d.updSeg g f := by
  refine onSegment_keeps (P := fun t => t = d ∨ ∃ g f, t = d.updSeg g f) (fun g => ?_) (.inl rfl)
  cases hc : configAt body with
  | none => exact .inl (congrArg Prod.snd (configureSegment_unreadable hc))
  | some c =>
    by_cases hm : (d.seg g).takesConfig c
    · by_cases hl : c.ownAddress ≠ 0#7 ∧ (lookup g c.ownAddress d).isSome = true
      · exact .inl (congrArg Prod.snd (configureSegment_ownTaken hc hm hl.1 hl.2))
      · exact .inr ⟨g, _, congrArg Prod.snd (configureSegment_done hc hm hl)⟩
    · exact .inl (congrArg Prod.snd (configureSegment_busy hc hm))

/-- An owner leaves the replies to the port. -/
theorem owner_replies (k : RequestKind) (body : List Byte) (d : Device) : (owner k body d).2.port.replies = d.port.replies := by
  have hP := repliesAre_closed d.port.replies
  have hsched : ∀ f (t : Device), t.port.replies = d.port.replies → (t.updSchedule f).port.replies = d.port.replies := fun _ _ h => h
  cases hk : closedRequest k with
  | true => exact owner_closed hP hk body rfl
  | false =>
    cases k <;> simp only [closedRequest, reduceCtorEq] at hk
    case restart => rfl
    case linkStatus =>
      show (requestLinkStatus body d).2.port.replies = _
      unfold requestLinkStatus
      dsimp only
      split <;> rfl
    case setAttention =>
      show (requestSetAttention body d).2.port.replies = _
      unfold requestSetAttention
      split <;> rfl
    case setReportMask =>
      show (requestSetReportMask body d).2.port.replies = _
      unfold requestSetReportMask
      dsimp only
      split <;> rfl
    case addTarget =>
      show (requestAddTarget body d).2.port.replies = _
      obtain h | ⟨i, f, h⟩ := requestAddTarget_writes body d <;> rw [h]
      rfl
    case modifyTarget =>
      show (requestModifyTarget body d).2.port.replies = _
      obtain h | ⟨i, f, h⟩ := requestModifyTarget_writes body d <;> rw [h]
      rfl
    case configureSegment =>
      show (requestConfigureSegment body d).2.port.replies = _
      obtain h | ⟨g, f, h⟩ := requestConfigureSegment_writes body d <;> rw [h]
      rfl
    case setFrame =>
      show (requestSetFrame body d).2.port.replies = _
      unfold requestSetFrame
      split
      · split <;> rfl
      · rfl
    case startSchedule =>
      show (requestStartSchedule body d).2.port.replies = _
      cases hr : d.schedule.running with
      | true => rw [requestStartSchedule_running hr]
      | false =>
        have hstarted := selectAfterJoins_closed hP d (startSchedule_closed (d := d) hP hsched rfl)
        rw [requestStartSchedule_stopped hr]
        dsimp only
        exact hstarted
    case stopSchedule =>
      show (requestStopSchedule body d).2.port.replies = _
      cases hr : d.schedule.running with
      | true =>
        rw [requestStopSchedule_running hr]
        exact swapIfPending_closed hP rfl
      | false => rw [requestStopSchedule_stopped hr]
    case commitBank =>
      show (requestCommitBank body d).2.port.replies = _
      unfold requestCommitBank
      split
      · split <;> rfl
      · exact swapBanks_closed hP rfl
    case fetchInbox =>
      show (requestFetchInbox body d).2.port.replies = _
      unfold requestFetchInbox
      split <;> rfl
    case inboxStatus =>
      show (requestInboxStatus body d).2.port.replies = _
      unfold requestInboxStatus
      dsimp only
      split <;> rfl

/-- An event below the port leaves the port. -/
theorem event_port {c : Instr} {f : Device → Device} (hf : eventAction c = some f) (s : State) : (f s.dev).port = s.dev.port := by
  have ht := exec_event hf s
  cases hc : Claims.eventSegment c with
  | some g => exact (segmentEvent_frame hc ht).1.port
  | none =>
    have htimer : c = .frameBoundary ∨ ∃ i, c = .assemblyExpiry i ∨ c = .deadlineExpiry i := by
      cases c <;> simp only [Claims.eventSegment, eventAction, reduceCtorEq] at hc hf
      case assemblyExpiry i => exact .inr ⟨i, .inl rfl⟩
      case deadlineExpiry i => exact .inr ⟨i, .inr rfl⟩
      case frameBoundary => exact .inl rfl
    exact (timerEvent_frame htimer ht).1.port

/-! ## What the port does to the reply queue -/

/-- A device's replies are the given ones, or these with one frame at their tail, for which there was a place. -/
def OneQueued (l : List Frame) (t : Device) : Prop :=
  t.port.replies = l ∨ ∃ f, l.length < 4 ∧ t.port.replies = l ++ [f]

theorem takeRequest_oneQueued (k : RequestKind) (tag : Byte) (body : List Byte) (d : Device) :
    OneQueued d.port.replies (takeRequest k tag body d) := by
  obtain hroom | hfull := Nat.lt_or_ge d.port.replies.length 4
  · have hkept : (answerRequest k body (countAccepted d)).2.port.replies = d.port.replies :=
      answerRequest_keeps (P := fun t => t.port.replies = d.port.replies) (owner_replies k body (countAccepted d)) rfl
    rw [takeRequest_room hroom]
    exact .inr ⟨_, hroom, congrArg (· ++ [_]) hkept⟩
  · rw [takeRequest_full hfull]
    exact .inl rfl

theorem rejectInbound_oneQueued (tag : Byte) (r : RejectReason) (d : Device) : OneQueued d.port.replies (rejectInbound tag r d) := by
  obtain hroom | hfull := Nat.lt_or_ge d.port.replies.length 4
  · rw [rejectInbound_room hroom]
    exact .inr ⟨_, hroom, rfl⟩
  · rw [rejectInbound_full hfull]
    exact .inl rfl

theorem judgeFrame_oneQueued (kind tag len : Byte) (body : List Byte) (c0 c1 : Byte) (d : Device) :
    OneQueued d.port.replies (judgeFrame kind tag len body c0 c1 d) := by
  unfold judgeFrame
  split
  · split
    · exact takeRequest_oneQueued ..
    · exact rejectInbound_oneQueued ..
  · exact rejectInbound_oneQueued _ _ (countCheckError d)

theorem takeLength_oneQueued (kind tag len : Byte) (d : Device) : OneQueued d.port.replies (takeLength kind tag len d) := by
  unfold takeLength
  split
  · split <;> exact .inl rfl
  · exact rejectInbound_oneQueued _ _ (countCheckError (setParser .done d))

/-- A byte that the parser takes joins one frame at most (R162, R164). -/
theorem parseByte_oneQueued (b : Byte) (d : Device) : OneQueued d.port.replies (parseByte b d) := by
  unfold parseByte
  split
  case h_1 =>
    split
    · exact .inl rfl
    · split <;> exact .inl rfl
  case h_4 => exact takeLength_oneQueued ..
  case h_5 => split <;> exact .inl rfl
  case h_7 => exact judgeFrame_oneQueued _ _ _ _ _ _ (setParser .done d)
  all_goals exact .inl rfl

/-- A byte that goes out leaves the replies, delivers the head, or resets the device (R167, R174). -/
theorem clockOutByte_replies (d : Device) : (clockOutByte d).port.replies = d.port.replies ∨
    (clockOutByte d).port.replies = d.port.replies.tail ∨ (clockOutByte d).port.replies = [] := by
  unfold clockOutByte
  split
  · split
    · exact .inl rfl
    · unfold deliver
      split
      · exact .inl rfl
      · split
        · exact .inr (.inr rfl)
        · exact .inr (.inl rfl)
  · exact .inl rfl
  · exact .inl rfl

theorem startTransfer_replies (d : Device) : (startTransfer d).port.replies = d.port.replies := by
  unfold startTransfer
  split
  · split <;> rfl
  all_goals rfl

theorem endTransfer_replies (d : Device) : (endTransfer d).port.replies = d.port.replies := by
  have hcut : (if d.port.parser.midFrame then countTruncated d else d).port.replies = d.port.replies := by split <;> rfl
  unfold endTransfer
  dsimp only
  split
  · rfl
  · rfl
  · split <;> exact hcut

/-! ## The law -/

theorem ReplyLaw.of_eq {t : Device} (h : ReplyLaw d) (e : t.port.replies = d.port.replies) : ReplyLaw t := by
  unfold ReplyLaw
  rwa [e]

theorem replyLaw_of_empty (h : d.port.replies = []) : ReplyLaw d := by
  simp [ReplyLaw, h]

theorem ReplyLaw.of_oneQueued {t : Device} (h : ReplyLaw d) (hj : OneQueued d.port.replies t) : ReplyLaw t := by
  obtain he | ⟨f, hroom, he⟩ := hj
  · exact h.of_eq he
  · unfold ReplyLaw
    rw [he, List.length_append]
    exact hroom

theorem clockOutByte_replyLaw (h : ReplyLaw d) : ReplyLaw (clockOutByte d) := by
  obtain he | he | he := clockOutByte_replies d
  · exact h.of_eq he
  · unfold ReplyLaw at h ⊢
    rw [he, List.length_tail]
    omega
  · exact replyLaw_of_empty he

theorem clockByte_replyLaw (b : Byte) (h : ReplyLaw d) : ReplyLaw (clockByte d b) := by
  have hout := clockOutByte_replyLaw h
  unfold clockByte
  split
  · dsimp only
    split
    · exact hout.of_oneQueued (parseByte_oneQueued b _)
    · exact hout
  · exact h

theorem clockBytes_replyLaw (l : List Byte) (h : ReplyLaw d) : ReplyLaw (clockBytes l d) :=
  foldl_keeps _ (fun _ b hd => clockByte_replyLaw b hd) l h

theorem deviceReset_replyLaw (q : ReportQueue) (d : Device) : ReplyLaw (deviceReset q d) := replyLaw_of_empty rfl

/-- Every command keeps the law: a request row clocks in its frame, an event leaves the port, and the rest is the port's. -/
theorem exec_replyLaw (c : Instr) {s t : State} (h : ReplyLaw s.dev) (he : exec c s = .next t) : ReplyLaw t.dev := by
  cases hr : requestOf c with
  | some r =>
    obtain ⟨k, tag, body⟩ := r
    rw [request_clocked hr, Host.Outcome.next.injEq] at he
    subst he
    exact clockBytes_replyLaw _ (h.of_eq (congrArg Port.replies (takeNote_port ..)))
  | none =>
    cases hf : eventAction c with
    | some f =>
      rw [exec_event hf, Host.Outcome.next.injEq] at he
      subst he
      exact h.of_eq (congrArg Port.replies (event_port hf s))
    | none =>
      cases c <;> simp only [requestOf, eventAction, reduceCtorEq] at hr hf <;> injection he with he <;> subst he
      case rejectFrame => exact clockBytes_replyLaw _ h
      case strayByte => exact clockBytes_replyLaw _ h
      case inboundFrameBegins => exact clockBytes_replyLaw _ h
      case transferStart => exact h.of_eq (startTransfer_replies s.dev)
      case transferEnd mdi => exact (clockBytes_replyLaw mdi h).of_eq (endTransfer_replies _)
      case frameDelivery => exact clockBytes_replyLaw _ h
      case restartFallbackExpiry =>
        show ReplyLaw (restartFallbackExpires _)
        unfold restartFallbackExpires
        split
        · exact deviceReset_replyLaw ..
        · exact h
      case rstnAssert =>
        show ReplyLaw (assertReset _)
        unfold assertReset
        split
        · exact h
        · exact replyLaw_of_empty rfl
      case rstnRelease =>
        show ReplyLaw (releaseReset _)
        unfold releaseReset
        split
        · exact replyLaw_of_empty rfl
        · exact h
      case powerOnReset => exact deviceReset_replyLaw ..

/-- Settles O17: a frame joins where there is a place, and nothing else makes the queue longer. -/
theorem everyStepKeepsTheReplyLaw : Obligations.EveryStepKeepsTheReplyLaw := by
  intro s t h hs
  unfold step at hs
  split at hs
  · rw [Host.Outcome.next.injEq] at hs
    exact hs ▸ h
  · next c rest _ => exact exec_replyLaw (s := ⟨s.dev, rest⟩) c h hs

end Sys2Proof.Machine
end

section
/-! PROOFS. The Message Port's requests and its parser (09 R161 to R164, R169 to R174): the cases of a request, a frame that fails, each byte
by the parse state, and the port's own requests. -/

namespace Sys2Proof.Machine

variable {d : Device} {o : Outbound} {tag : Byte} {body : List Byte}

theorem listens_iff {n : Nat} :
    listens d n o = true ↔ d.port.transfer = .active ∧ d.port.parser = .hunt ∧ d.port.outbound.after n = some o := by
  simp only [listens, Bool.and_eq_true, beq_iff_eq, and_assoc]

/-- A row that is an action on the device answers what the action makes of it. -/
theorem run_eq {s : State} {f : Device → Device} {t : Device} (h : f s.dev = t) : s.run f = .next { s with dev := t } := h ▸ rfl

/-! ## A request by R164 -/

/-- A request row whose frame the port takes whole is taken at DONE, whatever the port then makes of it. -/
theorem request_taken {c : Instr} {k : RequestKind} {s : State} (hc : requestOf c = some (k, tag, body)) (hb : body.length ≤ 60)
    (hl : listens s.dev (6 + body.length) o = true) :
    exec c s = .next { s with dev := takeRequest k tag body (atDone o (takeNote (noteOf c) s.dev)) } := by
  obtain ⟨hactive, hhunt, hafter⟩ := listens_iff.mp hl
  rw [← takeNote_port (noteOf c) s.dev] at hactive hhunt hafter
  rw [request_clocked hc, clockRequest_taken hactive hhunt k tag body hb hafter]

/-- Settles O3: a request taken at DONE meets one of the four cases. -/
theorem requestIsHandledInOrder : Obligations.RequestIsHandledInOrder := by
  intro c k tag body s o hc hb hl d
  have hport := takeNote_port (noteOf c) s.dev
  have hreplies : d.port.replies = s.dev.port.replies := (congrArg Port.replies hport :)
  have hpending : (countAccepted d).port.restartPending = s.dev.port.restartPending := (congrArg Port.restartPending hport :)
  have answered : ∀ {r u}, s.dev.port.replies.length < 4 → answerRequest k body (countAccepted d) = (r, u) →
      exec c s = replyTo s (k.code + 0x80#8) tag (r.status.code :: r.fields) u := fun hroom ha => by
    rw [request_taken hc hb hl, takeRequest_room (hreplies.symm ▸ hroom), ha]
    rfl
  refine ⟨fun hfull => ?_, fun hroom hp => answered hroom (answerRequest_restarting (hpending.trans hp)),
    fun hroom hp hl => answered hroom (answerRequest_badLength (hpending.trans hp) hl),
    fun hroom hp hl => answered hroom (answerRequest_executed (hpending.trans hp) hl)⟩
  rw [request_taken hc hb hl, takeRequest_full (hreplies.symm ▸ hfull)]

/-! ## The port's own requests (R170 to R173) -/

/-- The reply of LINK_STATUS, as its owner makes it before a clear takes effect (R172). -/
def linkStatusReply (d : Device) : Reply := ⟨.ok, d.port.counters.bytes ++ [byte d.port.replies.length, d.port.attention.code]⟩

theorem requestLinkStatus_kept {clear : Byte} (h : clear = 0#8) (d : Device) : requestLinkStatus [clear] d = (linkStatusReply d, d) :=
  congrArg (Prod.mk _) (if_neg (by simp [flagAt, byteAt, h]))

theorem requestLinkStatus_cleared {clear : Byte} (h : clear ≠ 0#8) (d : Device) :
    requestLinkStatus [clear] d = (linkStatusReply d, d.updPort fun p => { p with counters := .zero }) :=
  congrArg (Prod.mk _) (if_pos (bne_iff_ne.mpr h))

/-- Settles O5: the owner finds the counters with this request counted. -/
theorem pingAndLinkStatusAnswer : Obligations.PingAndLinkStatusAnswer := by
  refine ⟨fun s tag o ha => request_reply .ping [] _ rfl rfl rfl (Nat.zero_le _) ha rfl rfl, fun s tag clear o ha => ?_⟩
  intro n fields
  have answered : ∀ {u}, requestLinkStatus [clear] (found o s.dev) = (linkStatusReply (found o s.dev), u) →
      exec (.linkStatus tag [clear]) s = replyTo s 0x83#8 tag fields u :=
    request_reply .linkStatus [clear] _ rfl rfl rfl (Nat.le_add_left 1 59) ha rfl
  exact ⟨fun hkeep => answered (requestLinkStatus_kept hkeep _), fun hset => answered (requestLinkStatus_cleared hset _)⟩

theorem attentionOf_code (m : Attention) : attentionOf m.code = some m := by cases m <;> rfl

theorem attentionOf_none {b : Byte} (h : 3 ≤ b.toNat) : attentionOf b = none := by
  have hne : ∀ c : Byte, c.toNat < 3 → b ≠ c := fun c hc => byte_ne_of_toNat (by omega)
  rw [attentionOf, if_neg (hne _ (by decide)), if_neg (hne _ (by decide)), if_neg (hne _ (by decide))]

theorem requestSetAttention_valid {b : Byte} {m : Attention} (h : attentionOf b = some m) (d : Device) :
    requestSetAttention [b] d = (⟨.ok, [d.port.attention.code]⟩, d.updPort fun p => { p with attention := m }) := by
  rw [requestSetAttention, show attentionOf (byteAt [b] 0) = _ from h]

theorem requestSetAttention_invalid {b : Byte} (h : attentionOf b = none) (d : Device) :
    requestSetAttention [b] d = (refuse .badField, d) := by
  rw [requestSetAttention, show attentionOf (byteAt [b] 0) = _ from h]

/-- ATTN by the attention mode, RSTN being high (R169, R175). -/
theorem attnLow_iff (d : Device) : d.attnLow = true ↔ d.rstnLow = false ∧
    ((d.port.attention = .any ∧ (d.port.replies ≠ [] ∨ d.reports.list ≠ [])) ∨
      (d.port.attention = .replies ∧ d.port.replies ≠ [])) := by
  unfold Device.attnLow
  cases d.port.attention <;> simp

/-- Settles O6: the mode by its code, ATTN by the mode. -/
theorem attentionModeIsSetAndDrivesAttn : Obligations.AttentionModeIsSetAndDrivesAttn := by
  have answered : ∀ {s : State} {tag b : Byte} {o r u}, accepts s.dev 1 o = true → requestSetAttention [b] (found o s.dev) = (r, u) →
      exec (.setAttention tag [b]) s = replyTo s 0x84#8 tag (r.status.code :: r.fields) u := fun ha h =>
    request_reply .setAttention _ _ rfl rfl rfl (Nat.le_add_left 1 59) ha rfl h
  exact ⟨fun s tag m o ha => answered ha (requestSetAttention_valid (attentionOf_code m) _),
    fun s tag b o ha hb => answered ha (requestSetAttention_invalid (attentionOf_none hb) _), attnLow_iff⟩

/-- What is left of the chosen frame, where MDI brings nothing (log 3). -/
theorem restOfOutbound_nil {isReport : Bool} {f : Frame} {n : Nat} (h : d.port.outbound = .chosen isReport f n) :
    restOfOutbound [] d = List.replicate (f.length - n) 0#8 := by
  simp [restOfOutbound, h, padTo]

/-- FRAME_DELIVERY against 0x00 on MDI delivers the RESTART reply, which resets the device (R174). -/
theorem frameDelivery_restart {s : State} {f : Frame} {n : Nat} (ha : s.dev.port.transfer = .active) (hq : s.dev.port.parser = .hunt)
    (ho : s.dev.port.outbound = .chosen false f n) (hn : n < f.length) (hk : f.kind = 0x82#8) (hb : f.body = [0x00#8]) :
    exec (.frameDelivery []) s = .next { s with dev := deviceReset (.ready .request) s.dev } := by
  obtain ⟨m, hm⟩ : ∃ m, f.length - n = m + 1 := ⟨f.length - n - 1, by omega⟩
  have hafter : s.dev.port.outbound.after m = some (.chosen false f (n + m)) := by
    rw [ho]
    exact if_pos (by omega)
  have hrun : clockBytes (restOfOutbound [] s.dev) s.dev = deviceReset (.ready .request) s.dev := by
    rw [restOfOutbound_nil ho, hm, List.replicate_succ', clockBytes_append, clockBytes_zeros ha hq hafter]
    exact clockByte_restart_last (d := outboundAt (.chosen false f (n + m)) s.dev) ha rfl (by omega) hk hb _
  exact run_eq hrun

/-- Settles O4: the owner sets flag and timer; the expiry resets where the timer runs, the delivery at the reply's last byte. -/
theorem restartIsFlaggedAndCarriedOut : Obligations.RestartIsFlaggedAndCarriedOut := by
  exact ⟨fun s tag o ha => request_reply .restart [] _ rfl rfl rfl (Nat.zero_le _) ha rfl rfl,
    fun s n hn => run_eq (if_pos (by simp [hn])), fun s hn => run_eq (if_neg (by simp [hn])),
    fun s tag n ha hq ho hn => frameDelivery_restart ha hq ho hn rfl rfl⟩

/-! ## The parser, state by state (R161) -/

/-- A byte that does not deliver the outbound frame only sends it on, and the parser takes it. -/
theorem clockByte_parsed {b : Byte} (ha : d.port.transfer = .active) (ho : d.port.outbound.after 1 = some o) :
    clockByte d b = parseByte b (linkAt d.port.parser o d) := clockByte_linkAt ha ho b

theorem parseByte_hunt_marker (o : Outbound) (d : Device) : parseByte 0x5A#8 (linkAt .hunt o d) = linkAt .kind o d := rfl

theorem parseByte_hunt_stray {b : Byte} (h0 : b ≠ 0x00#8) (hm : b ≠ 0x5A#8) (o : Outbound) (d : Device) :
    parseByte b (linkAt .hunt o d) = countStray (linkAt .hunt o d) := (if_neg h0).trans (if_neg hm)

theorem takeLength_body {k t len : Byte} (h1 : 1 ≤ len.toNat) (h60 : len.toNat ≤ 60) (d : Device) :
    takeLength k t len d = setParser (.body k t len []) d :=
  (if_pos h60).trans (if_neg (byte_ne_of_toNat (show len.toNat ≠ 0 by omega)))

theorem takeLength_above {k t len : Byte} (h : 60 < len.toNat) (d : Device) :
    takeLength k t len d = rejectInbound t .length (countCheckError (setParser .done d)) := if_neg (Nat.not_le.mpr h)

theorem parseByte_body_more {k t n b : Byte} {l : List Byte} (h : l.length + 1 < n.toNat) (o : Outbound) (d : Device) :
    parseByte b (linkAt (.body k t n l) o d) = linkAt (.body k t n (l ++ [b])) o d := if_pos (by simpa using h)

theorem parseByte_body_last {k t n b : Byte} {l : List Byte} (h : l.length + 1 = n.toNat) (o : Outbound) (d : Device) :
    parseByte b (linkAt (.body k t n l) o d) = linkAt (.check k t n (l ++ [b]) none) o d := if_neg (by simp [h])

/-! ## Bytes in HUNT, and outside a transfer (R159, R161, R175) -/

/-- Bytes of 0x00 in HUNT, and one byte after them. -/
theorem clockBytes_zeros_then {z : Nat} (b : Byte) (h : listens d (z + 1) o = true) :
    clockBytes (List.replicate z 0#8 ++ [b]) d = parseByte b (linkAt .hunt o d) := by
  obtain ⟨ha, hq, ho⟩ := listens_iff.mp h
  obtain ⟨x, hzeros, hlast⟩ := Outbound.after_add ho
  rw [clockBytes_append, clockBytes_zeros ha hq hzeros]
  show clockByte (outboundAt x d) b = _
  rw [clockByte_parsed (d := outboundAt x d) ha hlast, ← hq]
  rfl

theorem clockByte_inactive (h : d.port.transfer ≠ .active) (b : Byte) : clockByte d b = d := if_neg h

theorem clockBytes_inactive (h : d.port.transfer ≠ .active) (l : List Byte) : clockBytes l d = d := by
  induction l with
  | nil => rfl
  | cons b l ih => rw [clockBytes_cons, clockByte_inactive h, ih]

/-- Settles O8: the parser's equations, then the rows that clock bytes in HUNT or in no transfer. -/
theorem parserTakesEachByteByItsState : Obligations.ParserTakesEachByteByItsState := by
  refine ⟨fun d b o ha ho => ?_, fun s z b o hl h0 hm => ?_, fun s z o hl => ?_, fun s hs => ?_⟩
  · have parsed : ∀ {q t}, d.port.parser = q → parseByte b (linkAt q o d) = t → clockByte d b = t := fun hq ht => by
      rw [clockByte_parsed ha ho, hq, ht]
    refine ⟨fun hq hb => parsed hq (hb ▸ parseByte_zero rfl), fun hq hb => parsed hq (hb ▸ parseByte_hunt_marker o d),
      fun hq h0 hm => parsed hq (parseByte_hunt_stray h0 hm o d), fun hq => parsed hq rfl, fun k hq => parsed hq rfl,
      fun k t hq h1 h60 => parsed hq (takeLength_body h1 h60 _), fun k t hq hb => parsed hq (hb ▸ rfl),
      fun k t hq hb => parsed hq (takeLength_above hb _), fun k t n l hq hn => parsed hq (parseByte_body_more hn o d),
      fun k t n l hq hn => parsed hq (parseByte_body_last hn o d), fun k t n l hq => parsed hq rfl,
      fun k t n l c hq => parsed hq rfl, fun hq => parsed hq rfl⟩
  · obtain ⟨-, hq, -⟩ := listens_iff.mp hl
    refine run_eq ?_
    rw [clockBytes_zeros_then b hl, parseByte_hunt_stray h0 hm, ← hq]
    rfl
  · exact run_eq (clockBytes_zeros_then marker hl)
  · have idle : ∀ l, clockBytes l s.dev = s.dev := clockBytes_inactive hs
    refine ⟨fun c k tag body hc hn => ?_, fun kind tag len body c0 c1 => run_eq (idle _), fun z b => run_eq (idle _),
      fun z => run_eq (idle _)⟩
    rw [request_clocked hc, hn]
    exact run_eq (f := clockRequest k tag body) (idle _)

/-! ## A frame that fails (R162) -/

theorem ofCode_none {kind : Byte} (h : ∀ k : RequestKind, k.code ≠ kind) : RequestKind.ofCode kind = none :=
  List.find?_eq_none.mpr fun k _ => by simp [h k]

/-- A length byte above 60 refuses the frame at that byte; no body or check byte of it is taken. -/
theorem clockBytes_tooLong {kind len : Byte} (hlen : 60 < len.toNat) (hl : listens d 4 o = true) :
    clockBytes [marker, kind, tag, len] d = rejectInbound tag .length (countCheckError (atDone o d)) := by
  obtain ⟨ha, hq, ho⟩ := listens_iff.mp hl
  obtain ⟨o1, h1, ho⟩ := Outbound.after_add (m := 1) (n := 3) ho
  obtain ⟨o2, h2, ho⟩ := Outbound.after_add (m := 1) (n := 2) ho
  obtain ⟨o3, h3, h4⟩ := Outbound.after_add (m := 1) (n := 1) ho
  have began : clockByte d marker = linkAt .kind o1 d := by rw [clockByte_parsed ha h1, hq]; rfl
  have kindTaken : clockByte (linkAt .kind o1 d) kind = linkAt (.tag kind) o2 d := clockByte_linkAt ha h2 kind
  have tagTaken : clockByte (linkAt (.tag kind) o2 d) tag = linkAt (.length kind tag) o3 d := clockByte_linkAt ha h3 tag
  show clockByte (clockByte (clockByte (clockByte d marker) kind) tag) len = _
  rw [began, kindTaken, tagTaken, clockByte_linkAt ha h4]
  exact takeLength_above hlen _

theorem rawFrameBytes_tooLong {kind len c0 c1 : Byte} (h : 60 < len.toNat) :
    rawFrameBytes kind tag len body c0 c1 = [marker, kind, tag, len] := by
  rw [rawFrameBytes, if_neg (show ¬ len.toNat ≤ Config.maxBody from Nat.not_le.mpr h), List.append_nil]

theorem rawFrameBytes_whole {kind len c0 c1 : Byte} (h : len.toNat ≤ 60) :
    rawFrameBytes kind tag len body c0 c1 = [marker, kind, tag, len] ++ (body ++ [c0, c1]) := by
  rw [rawFrameBytes, if_pos (show len.toNat ≤ Config.maxBody from h)]

/-- In HUNT none of the frame has been taken, so the row clocks it whole. -/
theorem rejectFrame_exec {s : State} {kind len c0 c1 : Byte} {t : Device} (hq : s.dev.port.parser = .hunt)
    (ht : clockBytes (rawFrameBytes kind tag len body c0 c1) s.dev = t) :
    exec (.rejectFrame kind tag len body c0 c1) s = .next { s with dev := t } := by
  refine run_eq ?_
  rw [clockRest, hq]
  exact ht

theorem rejectFrame_tooLong {s : State} {kind len c0 c1 : Byte} (hlen : 60 < len.toNat) (hl : listens s.dev 4 o = true) :
    exec (.rejectFrame kind tag len body c0 c1) s =
      .next { s with dev := rejectInbound tag .length (countCheckError (atDone o s.dev)) } := by
  obtain ⟨-, hq, -⟩ := listens_iff.mp hl
  refine rejectFrame_exec hq ?_
  rw [rawFrameBytes_tooLong hlen, clockBytes_tooLong hlen hl]

/-- A frame of a length the envelope allows is judged at its last check byte. -/
theorem rejectFrame_judged {s : State} {kind c0 c1 : Byte} (hb : body.length ≤ 60) (hl : listens s.dev (6 + body.length) o = true) :
    exec (.rejectFrame kind tag (byte body.length) body c0 c1) s =
      .next { s with dev := judgeFrame kind tag (byte body.length) body c0 c1 (atDone o s.dev) } := by
  obtain ⟨ha, hq, ho⟩ := listens_iff.mp hl
  have hlen : (byte body.length).toNat = body.length := byte_toNat (by omega)
  refine rejectFrame_exec hq ?_
  rw [rawFrameBytes_whole (hlen.trans_le hb), clockBytes_frame ha hq kind tag body c0 c1 hb ho]

section
variable {kind len c0 c1 : Byte}

theorem judgeFrame_check (h : checkBytes (kind :: tag :: len :: body) ≠ [c0, c1]) (d : Device) :
    judgeFrame kind tag len body c0 c1 d = rejectInbound tag .check (countCheckError d) := if_neg h

theorem judgeFrame_unknownKind (h : checkBytes (kind :: tag :: len :: body) = [c0, c1]) (hk : ∀ k : RequestKind, k.code ≠ kind)
    (d : Device) : judgeFrame kind tag len body c0 c1 d = rejectInbound tag .unknownKind d := by
  rw [judgeFrame, if_pos h, ofCode_none hk]

theorem judgeFrame_request {k : RequestKind} (h : checkBytes (kind :: tag :: len :: body) = [c0, c1]) (hk : k.code = kind)
    (d : Device) : judgeFrame kind tag len body c0 c1 d = takeRequest k tag body d := by
  rw [judgeFrame, if_pos h, ← hk, ofCode_code]

end

/-- A REJECT is queued or dropped, and a dropped one counted. -/
theorem rejectInbound_eq (r : RejectReason) (d : Device) : rejectInbound tag r d =
    if 4 ≤ d.port.replies.length then countUnanswered d else pushReply ⟨0xEF#8, tag, [r.code]⟩ d := by
  split
  · next hfull => exact rejectInbound_full hfull
  · next hroom => exact rejectInbound_room (Nat.lt_of_not_le hroom)

/-- Settles O7: the length at the length byte, then the check and the kind at the last check byte. -/
theorem failedFrameIsRejected : Obligations.FailedFrameIsRejected := by
  unfold Obligations.FailedFrameIsRejected
  intro rejected
  have dropsOrQueues : ∀ {tag : Byte} {r : RejectReason} {s : State} {t : Device}, t.port.replies = s.dev.port.replies →
      (.next { s with dev := rejectInbound tag r t } : Answer) = rejected tag r.code s t := fun {tag r s t} h => by
    rw [rejectInbound_eq, h]
    exact apply_ite (fun u => (.next { s with dev := u } : Answer)) ..
  refine ⟨fun s kind tag len c0 c1 body o hlen hl => ?_, fun s kind tag c0 c1 body o hb hl => ?_⟩
  · rw [rejectFrame_tooLong hlen hl]
    exact dropsOrQueues rfl
  · intro check
    rw [rejectFrame_judged hb hl]
    refine ⟨fun hcheck => ?_, fun hcheck hkind => ?_, fun hcheck k hk => ?_⟩
    · rw [judgeFrame_check hcheck]
      exact dropsOrQueues rfl
    · rw [judgeFrame_unknownKind hcheck hkind]
      exact dropsOrQueues rfl
    · rw [judgeFrame_request hcheck hk]

end Sys2Proof.Machine
end

section
/-! PROOFS. The machine: a step is the front command, and every command is one action on the device, which reads nothing of the commands that
wait. -/

namespace Sys2Proof.Machine

/-! ## The step -/

theorem step_idle (d : Device) : step ⟨d, []⟩ = .next ⟨d, []⟩ := rfl

theorem step_front (c : Instr) (rest : List Instr) (d : Device) : step ⟨d, c :: rest⟩ = exec c ⟨d, rest⟩ := rfl

/-- Settles O1: by the two shapes of the queue. -/
theorem stepRunsTheFrontCommand : Obligations.StepRunsTheFrontCommand := by
  unfold Obligations.StepRunsTheFrontCommand
  exact ⟨step_front, step_idle⟩

/-! ## Every command is an action on the device -/

/-- The action of a row of the port and the resets that is no request (08 R156; 09 R159 to R163, R167, R173 to R176). -/
def portAction : Instr → Option (Device → Device)
  | .rejectFrame kind tag len body c0 c1 => some (clockRest (rawFrameBytes kind tag len body c0 c1))
  | .strayByte zeros b => some (clockBytes (List.replicate zeros 0#8 ++ [b]))
  | .inboundFrameBegins zeros => some (clockBytes (List.replicate zeros 0#8 ++ [marker]))
  | .transferStart => some startTransfer
  | .transferEnd mdi => some fun d => endTransfer (clockBytes mdi d)
  | .frameDelivery mdi => some fun d => clockBytes (restOfOutbound mdi d) d
  | .restartFallbackExpiry => some restartFallbackExpires
  | .rstnAssert => some assertReset
  | .rstnRelease => some releaseReset
  | .powerOnReset => some (deviceReset (.ready .power))
  | _ => none

theorem exec_port {c : Instr} {f : Device → Device} (h : portAction c = some f) (s : State) : exec c s = s.run f := by
  cases c <;> simp only [portAction, Option.some.injEq, reduceCtorEq] at h <;> subst h <;> rfl

/-- A row of the table that is neither a request nor an event of a timer, an engine, a receiver or the frame is the port's own. -/
theorem portAction_of_rest {c : Instr} (hr : requestOf c = none) (he : eventAction c = none) : ∃ f, portAction c = some f := by
  cases c <;> simp only [requestOf, eventAction, reduceCtorEq] at hr he <;> exact ⟨_, rfl⟩

/-- The action of a command is chosen before the state is known, so it cannot read or change the commands that wait. -/
theorem exec_is_action (c : Instr) : ∃ f : Device → Device, ∀ s, exec c s = s.run f := by
  cases hr : requestOf c with
  | some r =>
    obtain ⟨k, tag, body⟩ := r
    exact ⟨fun d => clockRequest k tag body (takeNote (noteOf c) d), request_clocked hr⟩
  | none =>
    cases he : eventAction c with
    | some f => exact ⟨f, exec_event he⟩
    | none =>
      obtain ⟨f, hf⟩ := portAction_of_rest hr he
      exact ⟨f, exec_port hf⟩

/-- Settles O2: every command is an action on the device, whether a request, an event or a row of the port. -/
theorem everyCommandAnswersAndKeepsTheQueue : Obligations.EveryCommandAnswersAndKeepsTheQueue := by
  unfold Obligations.EveryCommandAnswersAndKeepsTheQueue
  intro c s
  obtain ⟨f, hf⟩ := exec_is_action c
  exact ⟨f s.dev, (hf s).trans (run_eq rfl)⟩

end Sys2Proof.Machine
end
